-- ==== Sys2Proof/Word.lean ====
section
/-! DEFINITION. The word types of CS341-CSC, named by what the spec stores in them (10_state.md R20 to R34). -/

namespace Sys2Proof

/-- A byte (R8). -/
abbrev Byte := BitVec 8

/-- A byte sequence (R8): the wire, the packet image, the payload, the two streams. -/
abbrev Bytes := List Byte

/-- The width of `OP`, `CSUM`, `RXCSUM` and `STATUS` (R21, R22, R32, R36). -/
abbrev Half := BitVec 16

/-- The width of `KEY` as the host sees it (R23). -/
abbrev Word32 := BitVec 32

/-- The width of `LEN`, `SUM` and `POS` (R24, R33, R35). -/
abbrev Word64 := BitVec 64

end Sys2Proof
end

