-- ==== Sys2Proof/Config.lean ====
section
/-! DEFINITION. What an implementation fixes (00_scope.md R5), and the free values: opaque constants that stand for
every value the spec calls unspecified (93_implementation_defined.md U1, U2, U4, U5). All instances share these constants
(DESIGN CHOICE, log 17). -/

namespace Sys2Proof

/-- The legal values of the parameter `HOST_ORDER` (R5). -/
inductive ByteOrder where
  | be
  | le
  deriving DecidableEq, Repr

/-- The two parameters R5 marks "argument": a claim may be stated for any value of them. -/
structure Params where
  /-- `MAX_PAYLOAD`, in bytes. -/
  maxPayload : Nat
  /-- `HOST_ORDER`. -/
  hostOrder : ByteOrder
  deriving DecidableEq, Repr

namespace Config

/-- `HEADER_BYTES` (R5, fixed). -/
def headerBytes : Nat := 16

/-- `ALPHABET` (R5, fixed). -/
def alphabet : Nat := 26

/-- The value this hardware takes for its parameters (R5): 10 MiB and `BE`. -/
def hardware : Params := { maxPayload := 10485760, hostOrder := .be }

/-- Free value (log 2): what the access numbered by the first argument reads at a payload address that nothing has
written. Two accesses need not agree (R51). -/
opaque unwrittenByte : Nat → Nat → Byte

/-- Free value (log 6): what a refused read returns (R210, U2), before it is cut to the width read. -/
opaque refusedRead : Nat → Word64

/-- Free value (log 7): how many bytes left `RXQ` when `RxTake` answered `closed` (R102, U4). -/
opaque lostBytes : Nat → Nat

/-- Free value (log 3): `POS` after `CLEAR` (R41: the reset item of R40, unspecified). -/
opaque clearedPos : Nat → Word64

/-- Free value (log 3): `RXCSUM` after `CLEAR` (R41: the reset item of R40, unspecified). -/
opaque clearedRxcsum : Nat → Half

end Config

end Sys2Proof
end

