-- ==== Sys2Proof/Syntax.lean ====
section
/-! DEFINITION. The instructions: one constructor per row of spec/opcode_table.json (R2: the nine host commands of R78
and the two packet operations of R74), with the operands their format gives them (R71, R77). -/

namespace Sys2Proof

/-- The keyword `KEY[0..3]`, `k0` being the first character, at wire offset 4 (R23). -/
structure Keyword where
  k0 : Byte
  k1 : Byte
  k2 : Byte
  k3 : Byte
  deriving DecidableEq, Repr

/-- The four header fields of a packet (R71), as `parse` of R75 gives them. -/
structure Header where
  op : Half
  csum : Half
  key : Keyword
  len : Word64
  deriving DecidableEq, Repr

/-- The two encoding formats (R70). -/
inductive Format where
  | cmd
  | pkt
  deriving DecidableEq, Repr

/-- The instruction set. A command has no operand field (R77); a packet operation carries the other three fields of
its header (R71). -/
inductive Instr where
  | nop
  | clear
  | recv
  | gen
  | verify
  | enc
  | dec
  | send
  | serve
  | pktEncrypt (csum : Half) (key : Keyword) (len : Word64)
  | pktDecrypt (csum : Half) (key : Keyword) (len : Word64)
  deriving DecidableEq, Repr

/-- The format an instruction is encoded in (R70). -/
def Instr.format : Instr → Format
  | .nop => .cmd
  | .clear => .cmd
  | .recv => .cmd
  | .gen => .cmd
  | .verify => .cmd
  | .enc => .cmd
  | .dec => .cmd
  | .send => .cmd
  | .serve => .cmd
  | .pktEncrypt _ _ _ => .pkt
  | .pktDecrypt _ _ _ => .pkt

end Sys2Proof
end

