-- ==== Sys2Proof/WellFormed.lean ====
section
/-! DEFINITION. Which instructions are well formed. Commands have no field that could be malformed (R77); a packet is
well formed when its length names a payload of at most `MAX_PAYLOAD` bytes (R70, R82, R84). -/

namespace Sys2Proof

/-- R84: `LEN < 16` is malformed, `LEN - 16 > MAX_PAYLOAD` is too big, otherwise the length is well formed. -/
def lengthWellFormed (p : Params) (len : Word64) : Bool :=
  decide (Config.headerBytes ≤ len.toNat) && decide (len.toNat - Config.headerBytes ≤ p.maxPayload)

/-- Well-formedness of an instruction under the parameters `p`. -/
def Instr.wellFormed (p : Params) : Instr → Bool
  | .nop => true
  | .clear => true
  | .recv => true
  | .gen => true
  | .verify => true
  | .enc => true
  | .dec => true
  | .send => true
  | .serve => true
  | .pktEncrypt _ _ len => lengthWellFormed p len
  | .pktDecrypt _ _ len => lengthWellFormed p len

end Sys2Proof
end

