-- ==== Sys2Proof/Decode.lean ====
section
/-! DEFINITION. Byte order (R8, R59), the header image and its parse (R72, R75), the decoder, total on any bytes and
refusing by name (R79, R81, R84), and the encoder (R71, R78). -/

namespace Sys2Proof

/-! ### Byte sequences and numbers (R8) -/

/-- `be_N(B)`: `B[0]` most significant. -/
def beNat (bs : Bytes) : Nat := bs.foldl (fun acc b => acc * 256 + b.toNat) 0

/-- `le_N(B)`: `B[0]` least significant. -/
def leNat (bs : Bytes) : Nat := bs.foldr (fun b acc => b.toNat + 256 * acc) 0

/-- A byte sequence as a number in the given order (R122's choice between `be` and `le`). -/
def orderedNat (o : ByteOrder) (bs : Bytes) : Nat :=
  match o with
  | .be => beNat bs
  | .le => leNat bs

/-- `bytes_le_N(v)` with `n = N/8` bytes. -/
def bytesLe : Nat → Nat → Bytes
  | 0, _ => []
  | n + 1, v => BitVec.ofNat 8 v :: bytesLe n (v / 256)

/-- `bytes_be_N(v)` with `n = N/8` bytes. -/
def bytesBe (n v : Nat) : Bytes := (bytesLe n v).reverse

/-- The inverse of `orderedNat` on `n` bytes. -/
def orderedBytes (o : ByteOrder) (n v : Nat) : Bytes :=
  match o with
  | .be => bytesBe n v
  | .le => bytesLe n v

/-- `B[i +: k]` (R8). -/
def slice (bs : Bytes) (i k : Nat) : Bytes := (bs.drop i).take k

/-- `B[i]` (R8); only used on sequences longer than `i`. -/
def byteAt (bs : Bytes) (i : Nat) : Byte := bs.getD i 0

/-! ### The keyword as a sequence and as the host's 32-bit register (R23) -/

/-- The four keyword bytes in wire order. -/
def Keyword.bytes (k : Keyword) : Bytes := [k.k0, k.k1, k.k2, k.k3]

/-- `KEY = KEY[0] ‖ KEY[1] ‖ KEY[2] ‖ KEY[3]` (R23). -/
def Keyword.toWord (k : Keyword) : Word32 := k.k0 ++ k.k1 ++ k.k2 ++ k.k3

/-- What a write of `v` to register 2 stores (R53). -/
def Keyword.ofWord (v : Word32) : Keyword :=
  { k0 := v.extractLsb' 24 8, k1 := v.extractLsb' 16 8, k2 := v.extractLsb' 8 8, k3 := v.extractLsb' 0 8 }

/-! ### The header image (R72) and its parse (R75) -/

/-- `hdr_image` (R72). -/
def headerImage (o : ByteOrder) (h : Header) : Bytes :=
  bytesBe 2 h.op.toNat ++ orderedBytes o 2 h.csum.toNat ++ h.key.bytes ++ bytesBe 8 h.len.toNat

/-- Header parsing (R75): every 16-byte sequence parses, and no field is validated. -/
def parseHeader (o : ByteOrder) (bs : Bytes) : Header :=
  { op := BitVec.ofNat 16 (beNat (slice bs 0 2))
    csum := BitVec.ofNat 16 (orderedNat o (slice bs 2 2))
    key := { k0 := byteAt bs 4, k1 := byteAt bs 5, k2 := byteAt bs 6, k3 := byteAt bs 7 }
    len := BitVec.ofNat 64 (beNat (slice bs 8 8)) }

/-! ### The decoder -/

/-- Why bytes are no instruction. -/
inductive DecodeError where
  /-- A reserved command code, 0x09 to 0xFF (R79). -/
  | reservedCommand (code : Byte)
  /-- An operation field other than 0 and 1 (R81). -/
  | unrecognisedOperation (op : Half)
  /-- Not the number of bytes the format has (R71, R77). -/
  | wrongLength (count : Nat)
  deriving DecidableEq, Repr

/-- The command codes (R78); every other code is reserved (R79). -/
def decodeCommand (c : Byte) : Except DecodeError Instr :=
  match c.toNat with
  | 0x00 => .ok .nop
  | 0x01 => .ok .clear
  | 0x02 => .ok .recv
  | 0x03 => .ok .gen
  | 0x04 => .ok .verify
  | 0x05 => .ok .enc
  | 0x06 => .ok .dec
  | 0x07 => .ok .send
  | 0x08 => .ok .serve
  | _ => .error (.reservedCommand c)

/-- The packet operation that a parsed header names (R74, R186); the comparison is of all 16 bits. -/
def decodeOperation (h : Header) : Except DecodeError Instr :=
  if h.op = 0#16 then .ok (.pktEncrypt h.csum h.key h.len)
  else if h.op = 1#16 then .ok (.pktDecrypt h.csum h.key h.len)
  else .error (.unrecognisedOperation h.op)

/-- The instruction the bytes encode in the given format (R70, R84). -/
def decode (o : ByteOrder) (f : Format) (bs : Bytes) : Except DecodeError Instr :=
  match f with
  | .cmd =>
    match bs with
    | [c] => decodeCommand c
    | _ => .error (.wrongLength bs.length)
  | .pkt =>
    if bs.length = Config.headerBytes then decodeOperation (parseHeader o bs)
    else .error (.wrongLength bs.length)

/-! ### The encoder -/

/-- The bytes of an instruction (R71, R72, R78). -/
def encode (o : ByteOrder) : Instr → Bytes
  | .nop => [0x00#8]
  | .clear => [0x01#8]
  | .recv => [0x02#8]
  | .gen => [0x03#8]
  | .verify => [0x04#8]
  | .enc => [0x05#8]
  | .dec => [0x06#8]
  | .send => [0x07#8]
  | .serve => [0x08#8]
  | .pktEncrypt csum key len => headerImage o { op := 0#16, csum := csum, key := key, len := len }
  | .pktDecrypt csum key len => headerImage o { op := 1#16, csum := csum, key := key, len := len }

/-! ### Words as the opcode table numbers them -/

/-- The bytes of a table word: a command is one byte (R77); a packet header is the 128-bit number
`H = be_128(header)` of R71, so its most significant byte comes first (log 14). -/
def tableBytes (nbits w : Nat) : Bytes := bytesBe (nbits / 8) w

/-- The format whose instructions have `nbits` bits in spec/opcode_table.json. -/
def tableFormat (nbits : Nat) : Option Format :=
  if nbits = 8 then some .cmd else if nbits = 128 then some .pkt else none

/-- The instruction this hardware's decoder reads from a word of the opcode table. -/
def decodeTableWord (nbits w : Nat) : Option Instr :=
  match tableFormat nbits with
  | none => none
  | some f => (decode Config.hardware.hostOrder f (tableBytes nbits w)).toOption

end Sys2Proof
end

