-- ==== Sys2Proof/Machine/State.lean ====
section
/-! DEFINITION. The state of one CS341-CSC (10_state.md R20 to R40), the agents' turns (R11), and the reasons a step
could stop. State is plain data. -/

namespace Sys2Proof.Machine

/-- Why the machine would stop with a fault. The spec has no such case: a rejection (R206) and a host error (R210) are
next states, and a held engine (R57) is a state in which its step is not enabled. So there is no constructor, and no
step faults (safe: nothing is cut off). -/
inductive Fault where
  deriving DecidableEq, Repr

/-- Why an instruction would be refused. No arm of `exec` uses it. -/
inductive Refusal where
  /-- Raised by an arm of `exec` for an instruction without a meaning (safe: the run stops). No arm raises it. -/
  | notModelled (mnemonic : String)
  deriving DecidableEq, Repr

/-- The values of `STATE` (R28). Codes 9 to 15 never occur, so they have no constructor. -/
inductive SeqState where
  | idle
  | receiving
  | verifying
  | encrypting
  | decrypting
  | summing
  | sending
  | closed
  | rejected
  deriving DecidableEq, Repr

/-- The causes of a rejection, the values of `ERR` (R200). Codes 8 to 15 are never produced. -/
inductive Cause where
  | none
  | badLen
  | tooBig
  | rxFail
  | badSum
  | badOp
  | badKey
  | txFail
  deriving DecidableEq, Repr

/-- A host access (20_memory.md R52 to R55). A written value is the low bits, at the register's width (log 9). -/
inductive Access where
  | regRead (r : Nat)
  | regWrite (r : Nat) (v : Word64)
  | payRead (a : Nat)
  | payWrite (a : Nat) (b : Byte)
  deriving DecidableEq, Repr

/-- The LINK's outcome for a `TxPut` (R58). -/
inductive TxAnswer where
  | ok
  | fail (p : Nat)
  deriving DecidableEq, Repr

/-- A step of the LINK (R39, R57, R58; `LINK.rx`, `LINK.eof`, `LINK.tx` of R86). -/
inductive LinkEvent where
  | rx (bytes : Bytes)
  | eof
  | tx (answer : TxAnswer)
  deriving DecidableEq, Repr

/-- Whether the engine's enabled steps are merged into one turn or taken one a turn (R180; the model's own, log 4). -/
inductive Pace where
  | merged
  | phased
  deriving DecidableEq, Repr

/-- Whose turn it is (R11: any agent with an enabled step may take it). The agenda of turns is the model's own data
(log 1). -/
inductive Turn where
  /-- The HOST makes one access. -/
  | host (a : Access)
  /-- The HOST's `WAIT` (R86): read `STATUS` until `BUSY = 0`. -/
  | wait
  /-- The LINK takes a step. -/
  | link (e : LinkEvent)
  /-- The ENGINE takes its step, if one is enabled. -/
  | engine
  /-- The environment resets the block (R230). -/
  | reset
  /-- From here on the engine keeps this pace. -/
  | setPace (p : Pace)
  deriving DecidableEq, Repr

/-- The value a host read returns, at the width of what is read (R52, R54, R61). -/
inductive Reply where
  | byte (v : Byte)
  | half (v : Half)
  | word (v : Word32)
  | dword (v : Word64)
  deriving DecidableEq, Repr

/-- The payload memory: the bytes written so far, addresses strictly rising. A byte not listed has no value. -/
abbrev Memory := List Host.Cell

/-- The state of one block, its link, and the model's own fields. -/
structure State where
  /-- `OP` (R21). -/
  op : Half
  /-- `CSUM` (R22). -/
  csum : Half
  /-- `KEY[0..3]` (R23). -/
  key : Keyword
  /-- `LEN` (R24). -/
  len : Word64
  /-- `PAY` (R38, R51). -/
  pay : Memory
  /-- `SUM` (R33). -/
  sum : Word64
  /-- `KIDX` (R34). -/
  kidx : BitVec 2
  /-- `STATE` (R28). -/
  state : SeqState
  /-- `SEQ` (R29). -/
  seq : Bool
  /-- `VOK` (R29). -/
  vok : Bool
  /-- `HERR` (R29). -/
  herr : Bool
  /-- `ERR` (R30). -/
  err : Cause
  /-- `CONN` (R37). -/
  conn : Bool
  /-- `POS`, hidden (R35). -/
  pos : Word64
  /-- `RXCSUM`, hidden (R36). -/
  rxcsum : Half
  /-- `RXQ` (R39). -/
  rxq : Bytes
  /-- `RXEOF` (R39). -/
  rxeof : Bool
  /-- `TXLOG` (R39). -/
  txlog : Bytes
  /-- MODEL's own: the engine stands between the two `RxTake` steps of `phase_recv` (R101). R20 names no item that holds
  this (DESIGN CHOICE, log 18). -/
  hdrTaken : Bool
  /-- MODEL's own: the LINK's answers to `TxPut` not used yet (R58, log 5). -/
  txPlan : List TxAnswer
  /-- MODEL's own place for the configuration arguments of R5; nothing writes them (log 15). -/
  params : Params
  /-- MODEL's own: the turns the agents will take, the next one first (log 1). -/
  agenda : List Turn
  /-- MODEL's own: the engine's granularity (R180, log 4). -/
  pace : Pace
  /-- MODEL's own: what host reads have returned, oldest first (log 6). -/
  reads : List Reply
  /-- MODEL's own: the index of the next free value (log 2). -/
  draws : Nat
  deriving DecidableEq, Repr

/-- The machine right after reset (R40, R231), with this hardware's parameters (R5). `POS` and `RXCSUM`, which the spec
leaves unspecified, hold 0 (DESIGN CHOICE, log 3). -/
def State.reset : State :=
  { op := 0#16
    csum := 0#16
    key := { k0 := 0#8, k1 := 0#8, k2 := 0#8, k3 := 0#8 }
    len := 16#64
    pay := []
    sum := 0#64
    kidx := 0#2
    state := .idle
    seq := false
    vok := false
    herr := false
    err := .none
    conn := true
    pos := 0#64
    rxcsum := 0#16
    rxq := []
    rxeof := false
    txlog := []
    hdrTaken := false
    txPlan := []
    params := Config.hardware
    agenda := []
    pace := .merged
    reads := []
    draws := 0 }

end Sys2Proof.Machine
end

