-- ==== Sys2Proof/Machine/Flags.lean ====
section
/-! DEFINITION. The codes of `STATE` and `ERR`, the derived flag `BUSY` and the view `STATUS`
(10_state.md R28 to R32, 60_exceptions.md R200). -/

namespace Sys2Proof.Machine

/-- The code of `STATE` (R28). -/
def SeqState.code : SeqState → BitVec 4
  | .idle => 0
  | .receiving => 1
  | .verifying => 2
  | .encrypting => 3
  | .decrypting => 4
  | .summing => 5
  | .sending => 6
  | .closed => 7
  | .rejected => 8

/-- `BUSY = 1` exactly when `STATE` is 1 to 6 (R29). -/
def SeqState.busy : SeqState → Bool
  | .idle => false
  | .receiving => true
  | .verifying => true
  | .encrypting => true
  | .decrypting => true
  | .summing => true
  | .sending => true
  | .closed => false
  | .rejected => false

/-- The terminal states, `CLOSED` and `REJECTED` (R12). -/
def SeqState.terminal : SeqState → Bool
  | .idle => false
  | .receiving => false
  | .verifying => false
  | .encrypting => false
  | .decrypting => false
  | .summing => false
  | .sending => false
  | .closed => true
  | .rejected => true

/-- The value recorded in `ERR` (R200). -/
def Cause.code : Cause → BitVec 4
  | .none => 0
  | .badLen => 1
  | .tooBig => 2
  | .rxFail => 3
  | .badSum => 4
  | .badOp => 5
  | .badKey => 6
  | .txFail => 7

/-- The derived flag `BUSY` (R29). -/
def State.busy (s : State) : Bool := s.state.busy

/-- `STATUS` (R32): from bit 15 down, reserved 0, `CONN`, `KIDX`, `ERR`, `HERR`, `VOK`, `SEQ`, `BUSY`, `STATE`. -/
def State.status (s : State) : Half :=
  0#1 ++ BitVec.ofBool s.conn ++ s.kidx ++ s.err.code ++ BitVec.ofBool s.herr ++ BitVec.ofBool s.vok ++
    BitVec.ofBool s.seq ++ BitVec.ofBool s.busy ++ s.state.code

end Sys2Proof.Machine
end

