-- ==== Sys2Proof/Machine/Ops.lean ====
section
/-! DEFINITION. The named operations: payload memory (R51), the rejection entry and the way out of it (R206, R184,
R209), the host error (R210), the link primitives (R57, R58), command acceptance and the length check (R181, R182). -/

namespace Sys2Proof.Machine

/-! ### Payload memory -/

/-- What an address that is not listed reads as: no value (R51). -/
def Memory.unlisted : Option Byte := none

/-- The byte last written at `a`, if there is one. -/
def Memory.read : Memory → Nat → Option Byte
  | [], _ => Memory.unlisted
  | (x, v) :: rest, a => if a = x then some v else Memory.read rest a

/-- Store one byte, keeping the addresses strictly rising. -/
def Memory.write : Memory → Nat → Byte → Memory
  | [], a, b => [(a, b)]
  | (x, v) :: rest, a, b =>
    if a < x then (a, b) :: (x, v) :: rest
    else if a = x then (a, b) :: rest
    else (x, v) :: Memory.write rest a b

/-- `MemWrite(a, |bs|, bs)` (R9). -/
def Memory.writeBytes : Memory → Nat → Bytes → Memory
  | m, _, [] => m
  | m, a, b :: bs => Memory.writeBytes (Memory.write m a b) (a + 1) bs

/-- Make `PAY[0 +: n]` unspecified (R102): no entry below `n` is left. -/
def Memory.forgetBelow (m : Memory) (n : Nat) : Memory := m.filter (fun c => decide (n ≤ c.1))

/-- The canonical form: addresses strictly rising. (An entry always holds a byte, so none equals what an unlisted
address reads as.) -/
abbrev Memory.wf (m : Memory) : Prop := (m.map Prod.fst).Pairwise (· < ·)

/-- Every listed address is an address of the payload space (R50). -/
abbrev Memory.inRange (m : Memory) (n : Nat) : Prop := ∀ c ∈ m, c.1 < n

/-- One access that may have needed a free value has been made. -/
def draw (s : State) : State := { s with draws := s.draws + 1 }

/-- `PAY[a]` as an access reads it: the byte written there, or a free value (R51). -/
def payByte (s : State) (a : Nat) : Byte := (s.pay.read a).getD (Config.unwrittenByte s.draws a)

/-- `MemRead(0, n)` (R9). -/
def payBytes (s : State) (n : Nat) : Bytes := (List.range n).map (payByte s)

/-! ### Rejection (R206) and the way out of it (R209) -/

/-- `raise Reject(c)` (R206): the block's exception entry. The rest of the command is abandoned. -/
def reject (c : Cause) (s : State) : State :=
  { s with err := c, conn := false, seq := false, state := .rejected, hdrTaken := false }

/-- The effect of an accepted `CLEAR` (R184, R41), the one command that leaves `REJECTED` and `CLOSED` (R209). `PAY`,
`CONN` and the link stay; the hidden registers become unspecified, as at reset (log 3). -/
def clearPacket (s : State) : State :=
  { s with
    op := 0#16, csum := 0#16, key := { k0 := 0#8, k1 := 0#8, k2 := 0#8, k3 := 0#8 }, len := 16#64
    sum := 0#64, kidx := 0#2
    vok := false, herr := false, err := .none, seq := false
    state := .idle, hdrTaken := false
    pos := Config.clearedPos s.draws, rxcsum := Config.clearedRxcsum s.draws, draws := s.draws + 1 }

/-- `close` (R187). -/
def closeLink (s : State) : State := { s with conn := false }

/-- `raise HostError` (R210), for an access that is not a read. -/
def hostError (s : State) : State := { s with herr := true }

/-! ### Command acceptance (R181) -/

/-- Acceptance of `NOP` and `CLEAR`: in every state that is not busy. -/
def acceptHousekeeping (s : State) (run : State → State) : State :=
  if s.busy then hostError s else run s

/-- Acceptance of every other command: in `IDLE` only. -/
def acceptCommand (s : State) (run : State → State) : State :=
  if s.busy then hostError s
  else if s.state.terminal then hostError s
  else run s

/-! ### The length check (R182) -/

/-- `check_len`: the cause it rejects with, if it does. `LEN - 16` is formed only after `LEN >= 16`. -/
def checkLen (s : State) : Option Cause :=
  if s.len.toNat < Config.headerBytes then some .badLen
  else if s.params.maxPayload < s.len.toNat - Config.headerBytes then some .tooBig
  else none

/-- Run a check (R182, R153), then go on or reject with its cause. -/
def checked (check : State → Option Cause) (s : State) (run : State → State) : State :=
  match check s with
  | some c => reject c s
  | none => run s

/-! ### The link primitives -/

/-- The outcomes of `RxTake` (R57). -/
inductive RxResult where
  | bytes (bs : Bytes) (s : State)
  | closed (s : State)
  | hold

/-- `RxTake(k)` (R57). How many bytes leave `RXQ` on `closed` is unspecified (R102): a free number (log 7). -/
def rxTake (k : Nat) (s : State) : RxResult :=
  if k = 0 then .bytes [] s
  else if k ≤ s.rxq.length then .bytes (s.rxq.take k) { s with rxq := s.rxq.drop k }
  else if s.rxeof then .closed { s with rxq := s.rxq.drop (Config.lostBytes s.draws), draws := s.draws + 1 }
  else .hold

/-- The outcomes of `TxPut` (R58). -/
inductive TxResult where
  | ok (s : State)
  | fail (s : State)
  | hold

/-- How many bytes of `B` a failed `TxPut` sends: always a proper prefix (R58, log 5). -/
def failedCount (p : Nat) (bs : Bytes) : Nat := min p (bs.length - 1)

/-- `TxPut(B)` (R58): it uses the LINK's next answer, and holds while there is none. -/
def txPut (bs : Bytes) (s : State) : TxResult :=
  match s.txPlan with
  | [] => .hold
  | .ok :: plan => .ok { s with txlog := s.txlog ++ bs, txPlan := plan }
  | .fail p :: plan => .fail { s with txlog := s.txlog ++ bs.take (failedCount p bs), txPlan := plan }

/-! ### Host replies -/

/-- A read that is granted returns `v` (R52, R54). -/
def reply (v : Reply) (s : State) : State := { s with reads := s.reads ++ [v] }

/-- A refused read (R210): `HERR`, and the value returned, of the width of `shape`, is unspecified (log 6). -/
def refuseRead (shape : Word64 → Reply) (s : State) : State :=
  { s with herr := true, reads := s.reads ++ [shape (Config.refusedRead s.draws)], draws := s.draws + 1 }

end Sys2Proof.Machine
end

