-- ==== Sys2Proof/Machine/Operands.lean ====
section
/-! DEFINITION. What commands operate on: they have no operand field (R77), so their operands are views of the packet
state: the header image, the zeroed image, the payload and the packet image (R50, R51, R72, R73, R121). -/

namespace Sys2Proof.Machine

/-- The four header registers (R21 to R24). -/
def State.header (s : State) : Header := { op := s.op, csum := s.csum, key := s.key, len := s.len }

/-- Load the four header registers (the assignments of R75). -/
def loadHeader (h : Header) (s : State) : State := { s with op := h.op, csum := h.csum, key := h.key, len := h.len }

/-- `HDR`, the image of the present registers (R72). -/
def State.hdr (s : State) : Bytes := headerImage s.params.hostOrder s.header

/-- `HDR0`, the zeroed image (R73). -/
def State.hdr0 (s : State) : Bytes := headerImage s.params.hostOrder { s.header with csum := 0#16 }

/-- `n = LEN - 16` (R51); used only after `check_len`, so the subtraction does not go below 0. -/
def State.payloadSize (s : State) : Nat := s.len.toNat - Config.headerBytes

/-- `PAY[0 +: n]`, the payload of the current packet (R51). -/
def State.payload (s : State) : Bytes := payBytes s s.payloadSize

/-- `HDR0 ++ PAY[0 +: LEN-16]`, what the checksum covers (R121). -/
def State.summedImage (s : State) : Bytes := s.hdr0 ++ s.payload

/-- `HDR ++ PAY[0 +: LEN-16]`, what `SEND` transmits (R105). -/
def State.packetImage (s : State) : Bytes := s.hdr ++ s.payload

/-- `KEY[i]` for a keyword position `i` (R34). -/
def keyAt (k : Keyword) (i : BitVec 2) : Byte :=
  match i.toNat with
  | 0 => k.k0
  | 1 => k.k1
  | 2 => k.k2
  | _ => k.k3

end Sys2Proof.Machine
end

