-- ==== Sys2Proof/Machine/Checksum.lean ====
section
/-! DEFINITION. The checksum accumulator (41_checksum.md R121 to R131): the pure functions and the two phases. -/

namespace Sys2Proof.Machine

/-- `word(B)` for 8, 4, 2 or 1 bytes, zero-extended (R122). -/
def word (o : ByteOrder) (bs : Bytes) : Word64 := BitVec.ofNat 64 (orderedNat o bs)

/-- End-around-carry addition (R123). -/
def eac64 (s w : Word64) : Word64 := if s + w < w then s + w + 1#64 else s + w

/-- `fold32` (R124): the halves' 33-bit sum, its carry added back. -/
def fold32 (s : Word64) : Word32 :=
  let t := (s.extractLsb' 32 32).toNat + (s.extractLsb' 0 32).toNat
  BitVec.ofNat 32 (t % 2 ^ 32 + t / 2 ^ 32)

/-- `fold16` (R125): the halves' 17-bit sum, its carry added back. -/
def fold16 (s : Word32) : Half :=
  let t := (s.extractLsb' 16 16).toNat + (s.extractLsb' 0 16).toNat
  BitVec.ofNat 16 (t % 2 ^ 16 + t / 2 ^ 16)

/-- `finish` (R126). -/
def finish (s : Word64) : Half := ~~~ fold16 (fold32 s)

/-- The first `k` 8-byte pieces of a sequence. -/
def octets : Nat → Bytes → List Bytes
  | 0, _ => []
  | k + 1, bs => bs.take 8 :: octets k (bs.drop 8)

/-- One `if |M| - POS >= k` of R127: the piece it adds, if any. -/
def pieceOf (k : Nat) (bs : Bytes) : List Bytes := if k ≤ bs.length then [bs.take k] else []

/-- What that `if` leaves. -/
def afterPiece (k : Nat) (bs : Bytes) : Bytes := if k ≤ bs.length then bs.drop k else bs

/-- The remainder of 0 to 7 bytes: at most one piece of 4, then of 2, then of 1 (R127). -/
def remainderPieces (bs : Bytes) : List Bytes :=
  pieceOf 4 bs ++ pieceOf 2 (afterPiece 4 bs) ++ pieceOf 1 (afterPiece 2 (afterPiece 4 bs))

/-- The pieces of the payload, in order (R127). -/
def payloadPieces (bs : Bytes) : List Bytes :=
  octets (bs.length / 8) bs ++ remainderPieces (bs.drop (8 * (bs.length / 8)))

/-- The pieces of a packet image of at least 16 bytes, in order: two header words, then the payload's (R127). -/
def imagePieces (m : Bytes) : List Bytes := slice m 0 8 :: slice m 8 8 :: payloadPieces (m.drop 16)

/-- The words R127 adds, in order. -/
def imageWords (o : ByteOrder) (m : Bytes) : List Word64 := (imagePieces m).map (word o)

/-- `accumulate(M)` (R127). -/
def accumulate (o : ByteOrder) (m : Bytes) : Word64 := (imageWords o m).foldl eac64 0#64

/-- `cksum(M)` (R128). -/
def cksum (o : ByteOrder) (m : Bytes) : Half := finish (accumulate o m)

/-- The accumulation over the packet (R121, R127): `SUM`, and `POS` at its end. -/
def accumulatePacket (s : State) : State :=
  draw { s with sum := accumulate s.params.hostOrder s.summedImage, pos := BitVec.ofNat 64 s.summedImage.length }

/-- `phase_sum` (R129). -/
def phaseSum (s : State) : State :=
  let t := accumulatePacket s
  { t with csum := finish t.sum }

/-- `phase_verify` (R131): `RXCSUM` takes `CSUM`, which is left as it was, and the recomputed value is compared with
it. -/
def phaseVerify (s : State) : State :=
  let t := accumulatePacket s
  { t with rxcsum := s.csum, vok := decide (finish t.sum = s.csum) }

end Sys2Proof.Machine
end

