-- ==== Sys2Proof/Machine/Cipher.lean ====
section
/-! DEFINITION. The cipher datapath (42_cipher.md R150 to R158): the byte functions, the walk and the transform
phase. Arithmetic is exact, on numbers, and narrowed at the end (R163). -/

namespace Sys2Proof.Machine

/-- `is_upper` (R150). -/
def isUpper (c : Byte) : Bool := decide (0x41 ≤ c.toNat) && decide (c.toNat ≤ 0x5A)

/-- `is_lower` (R150). -/
def isLower (c : Byte) : Bool := decide (0x61 ≤ c.toNat) && decide (c.toNat ≤ 0x7A)

/-- `is_letter` (R150). -/
def isLetter (c : Byte) : Bool := isUpper c || isLower c

/-- `lower` (R151). -/
def lower (c : Byte) : Byte := if isUpper c then BitVec.ofNat 8 (c.toNat + 32) else c

/-- `rank` of a lower-case letter (R152). -/
def rank (k : Byte) : Nat := k.toNat - 0x61

/-- All four keyword bytes are lower-case letters (R153). -/
def keyValid (k : Keyword) : Bool := isLower k.k0 && isLower k.k1 && isLower k.k2 && isLower k.k3

/-- `check_key` (R153). -/
def checkKey (s : State) : Option Cause := if keyValid s.key then none else some .badKey

/-- `enc_byte` (R154): the new byte, and whether the keyword position advances. -/
def encByte (c k : Byte) : Byte × Bool :=
  let c1 := lower c
  if isLower c1 then
    let t := c1.toNat + rank k
    (BitVec.ofNat 8 (if 0x7A < t then t - Config.alphabet else t), true)
  else (c1, false)

/-- `dec_byte` (R155). -/
def decByte (c k : Byte) : Byte × Bool :=
  let c1 := lower c
  if isLower c1 then
    let t := c1.toNat - rank k
    (BitVec.ofNat 8 (if t < 0x61 then t + Config.alphabet else t), true)
  else (c1, false)

/-- Which transform (R74, R186). -/
inductive Direction where
  | encrypt
  | decrypt
  deriving DecidableEq, Repr

/-- The byte function of a transform (R156). -/
def Direction.byte : Direction → Byte → Byte → Byte × Bool
  | .encrypt => encByte
  | .decrypt => decByte

/-- The `STATE` in which a transform runs (R156). -/
def Direction.state : Direction → SeqState
  | .encrypt => .encrypting
  | .decrypt => .decrypting

/-- The loop of R156 over a payload, from keyword position `j`: the new bytes and the final position. -/
def walk (f : Byte → Byte → Byte × Bool) (key : Keyword) : BitVec 2 → Bytes → Bytes × BitVec 2
  | j, [] => ([], j)
  | j, c :: rest =>
    let r := f c (keyAt key j)
    let w := walk f key (if r.2 then j + 1#2 else j) rest
    (r.1 :: w.1, w.2)

/-- `encrypt(P, K)` (R157). -/
def encrypt (p : Bytes) (key : Keyword) : Bytes := (walk encByte key 0#2 p).1

/-- `decrypt(P, K)` (R158). -/
def decrypt (p : Bytes) (key : Keyword) : Bytes := (walk decByte key 0#2 p).1

/-- `phase_xform(f)` (R156): in place, first byte first. `POS` has walked the payload (log 12). -/
def phaseXform (d : Direction) (s : State) : State :=
  let w := walk d.byte s.key 0#2 s.payload
  draw { s with pay := s.pay.writeBytes 0 w.1, kidx := w.2, pos := BitVec.ofNat 64 s.payloadSize }

end Sys2Proof.Machine
end

