-- ==== Sys2Proof/Machine/Engine.lean ====
section
/-! DEFINITION. The engine: its atomic steps (43_sequencer.md R180, R190; 40_codec.md R100, R105) and how far a turn of
the engine goes. `none` says that the step is not enabled (R57, R58). -/

namespace Sys2Proof.Machine

/-! ### Receive (R100, R101) -/

/-- The rest of the first receive step, once 16 bytes have been taken: clear `VOK`, parse, test the length. -/
def acceptHeader (h : Header) (s : State) : State :=
  checked checkLen (loadHeader h { s with vok := false }) (fun t => { t with hdrTaken := true })

/-- The first step of `phase_recv`: up to and with the length tests (R100). `VOK` is cleared with this step (log 8). -/
def recvHeaderStep (s : State) : Option State :=
  if s.conn then
    match rxTake Config.headerBytes s with
    | .bytes bs t => some (acceptHeader (parseHeader s.params.hostOrder bs) t)
    | .closed t => some (reject .rxFail { t with vok := false })
    | .hold => none
  else some (reject .rxFail { s with vok := false })

/-- The second step of `phase_recv`: the payload (R100). A close leaves `PAY[0 +: n]` unspecified (R102). -/
def recvPayloadStep (s : State) : Option State :=
  match rxTake s.payloadSize s with
  | .bytes bs t =>
    some { t with pay := t.pay.writeBytes 0 bs, hdrTaken := false, state := if t.seq then .verifying else .idle }
  | .closed t => some (reject .rxFail { t with pay := t.pay.forgetBelow t.payloadSize })
  | .hold => none

/-! ### Verify and dispatch (R131, R185, R186) -/

/-- The transform an operation code selects (R74); none for the unrecognised codes. -/
def operation (op : Half) : Option Direction :=
  if op = 0#16 then some .encrypt else if op = 1#16 then some .decrypt else none

/-- `dispatch` then `check_key` (R185, R186). -/
def dispatch (s : State) : State :=
  match operation s.op with
  | none => reject .badOp s
  | some d => checked checkKey s (fun t => { t with state := d.state })

/-- The `VERIFYING` step (R131, R185): inside `SERVE`, the tests written after `phase_verify` belong to it. -/
def verifyStep (s : State) : State :=
  let t := phaseVerify s
  if t.seq then
    if t.vok then dispatch t else reject .badSum t
  else { t with state := .idle }

/-! ### Transform, sum, send (R156, R129, R105) -/

/-- The `ENCRYPTING` or `DECRYPTING` step. -/
def xformStep (d : Direction) (s : State) : State := { phaseXform d s with state := .summing }

/-- The `SUMMING` step: `SEQ` decides where it goes next (R189). -/
def sumStep (s : State) : State :=
  let t := phaseSum s
  { t with state := if t.seq then .sending else .idle }

/-- The end of the `SENDING` step after `ok`: `SERVE` closes (R187), `SEND` leaves the link open (R106). -/
def afterSend (s : State) : State :=
  if s.seq then { closeLink s with state := .closed, seq := false } else { s with state := .idle }

/-- The `SENDING` step: `phase_send` (R105). -/
def sendStep (s : State) : Option State :=
  if s.conn then
    match txPut s.packetImage (draw s) with
    | .ok t => some (afterSend t)
    | .fail t => some (reject .txFail t)
    | .hold => none
  else some (reject .txFail s)

/-! ### The engine's step and turn -/

/-- One atomic step of the engine, if it is enabled (R180, R190). -/
def engineStep (s : State) : Option State :=
  match s.state with
  | .idle => none
  | .receiving => if s.hdrTaken then recvPayloadStep s else recvHeaderStep s
  | .verifying => some (verifyStep s)
  | .encrypting => some (xformStep .encrypt s)
  | .decrypting => some (xformStep .decrypt s)
  | .summing => some (sumStep s)
  | .sending => sendStep s
  | .closed => none
  | .rejected => none

/-- At most `k` engine steps, while one is enabled. -/
def runEngine : Nat → State → State
  | 0, s => s
  | k + 1, s =>
    match engineStep s with
    | none => s
    | some t => runEngine k t

/-- The longest command, `SERVE`, has six engine steps: two receive steps, verify, transform, sum, send (R185). -/
def longestRun : Nat := 6

/-- What follows a step within the same turn: when the pace is merged, every further enabled step, also one that could
hold and does not, until the engine holds or its command has ended; when it is phased, none (R180, log 4). -/
def advance (s : State) : State :=
  match s.pace with
  | .merged => runEngine longestRun s
  | .phased => s

/-- The engine's turn: its step, if it is enabled, and what follows in the same turn. -/
def engineRun (s : State) : State :=
  match engineStep s with
  | none => s
  | some t => advance t

end Sys2Proof.Machine
end

