-- ==== Sys2Proof/Machine/ChecksumCommands.lean ====
section
/-! DEFINITION. The checksum commands GEN (R130) and VERIFY (R131). -/

namespace Sys2Proof.Machine

/-- `GEN` (R130). -/
def execGen (s : State) : Host.Outcome State Fault Refusal :=
  .next (acceptCommand s fun s => checked checkLen s fun s => advance { s with state := .summing })

/-- `VERIFY` (R131): a mismatch is `VOK = 0`, not a rejection. -/
def execVerify (s : State) : Host.Outcome State Fault Refusal :=
  .next (acceptCommand s fun s => checked checkLen s fun s => advance { s with state := .verifying })

end Sys2Proof.Machine
end

