-- ==== Sys2Proof/Machine/CipherCommands.lean ====
section
/-! DEFINITION. The cipher commands ENC (R159) and DEC (R160): check the length, then the keyword, transform the
payload, recompute the checksum. `OP` does not select the direction. -/

namespace Sys2Proof.Machine

/-- What ENC and DEC share (R159, R160). -/
def transformCommand (d : Direction) (s : State) : State :=
  acceptCommand s fun s => checked checkLen s fun s => checked checkKey s fun s => advance { s with state := d.state }

/-- `ENC` (R159). -/
def execEnc (s : State) : Host.Outcome State Fault Refusal := .next (transformCommand .encrypt s)

/-- `DEC` (R160). -/
def execDec (s : State) : Host.Outcome State Fault Refusal := .next (transformCommand .decrypt s)

end Sys2Proof.Machine
end

