-- ==== Sys2Proof/Machine/PacketOperations.lean ====
section
/-! DEFINITION. The packet operations PKT.ENCRYPT and PKT.DECRYPT (R74): what a packet's header makes `SERVE` do. The
header is fetched by the first `RxTake` of the receive phase; from there the rules of `SERVE` run: the header registers
are loaded (R75), the length tested, the payload received (R100), the checksum verified (R131), and then the operation
selects the transform (R157, R158, R186), which is followed by the recompute, the send and the close (R185). -/

namespace Sys2Proof.Machine

/-- `SERVE` is about to take a packet's header: the one place where a packet is an instruction (R2, R70, R74). -/
def awaitsPacket (s : State) : Bool := decide (s.state = .receiving) && s.seq && !s.hdrTaken && s.conn

/-- What the two packet operations share; elsewhere than in `SERVE`'s receive phase a packet selects nothing (log 11). -/
def servePacket (h : Header) (s : State) : State := if awaitsPacket s then advance (acceptHeader h s) else s

/-- `PKT.ENCRYPT`, operation 0 (R74, R157). -/
def execPktEncrypt (csum : Half) (key : Keyword) (len : Word64) (s : State) : Host.Outcome State Fault Refusal :=
  .next (servePacket { op := 0#16, csum := csum, key := key, len := len } s)

/-- `PKT.DECRYPT`, operation 1 (R74, R158). -/
def execPktDecrypt (csum : Half) (key : Keyword) (len : Word64) (s : State) : Host.Outcome State Fault Refusal :=
  .next (servePacket { op := 1#16, csum := csum, key := key, len := len } s)

end Sys2Proof.Machine
end

