-- ==== Sys2Proof/Machine/Codec.lean ====
section
/-! DEFINITION. The packet codec commands RECV (R103) and SEND (R106). -/

namespace Sys2Proof.Machine

/-- `STATE <- RECEIVING`, before the first `RxTake` (R100, R101). -/
def openReceive (s : State) : State := { s with state := .receiving, hdrTaken := false }

/-- `RECV` (R103). -/
def execRecv (s : State) : Host.Outcome State Fault Refusal :=
  .next (acceptCommand s fun s => advance (openReceive s))

/-- `SEND` (R106). -/
def execSend (s : State) : Host.Outcome State Fault Refusal :=
  .next (acceptCommand s fun s => checked checkLen s fun s => advance { s with state := .sending })

end Sys2Proof.Machine
end

