-- ==== Sys2Proof/Machine/Sequencer.lean ====
section
/-! DEFINITION. The housekeeping commands NOP (R183) and CLEAR (R184), and SERVE (R185). -/

namespace Sys2Proof.Machine

/-- `NOP` (R183). -/
def execNop (s : State) : Host.Outcome State Fault Refusal := .next (acceptHousekeeping s fun s => s)

/-- `CLEAR` (R184). -/
def execClear (s : State) : Host.Outcome State Fault Refusal := .next (acceptHousekeeping s clearPacket)

/-- `SERVE` (R185): `SEQ <- 1`, then the phases from `RECEIVING` on, which `SEQ` chains (R189). -/
def execServe (s : State) : Host.Outcome State Fault Refusal :=
  .next (acceptCommand s fun s => advance (openReceive { s with seq := true }))

end Sys2Proof.Machine
end

