-- ==== Sys2Proof/Machine/Dispatch.lean ====
section
/-! DEFINITION. One arm per instruction of spec/opcode_table.json. -/

namespace Sys2Proof.Machine

def exec (i : Instr) (s : State) : Host.Outcome State Fault Refusal :=
  match i with
  | .nop => Sys2Proof.Machine.execNop s
  | .clear => Sys2Proof.Machine.execClear s
  | .recv => Sys2Proof.Machine.execRecv s
  | .gen => Sys2Proof.Machine.execGen s
  | .verify => Sys2Proof.Machine.execVerify s
  | .enc => Sys2Proof.Machine.execEnc s
  | .dec => Sys2Proof.Machine.execDec s
  | .send => Sys2Proof.Machine.execSend s
  | .serve => Sys2Proof.Machine.execServe s
  | .pktEncrypt csum key len => Sys2Proof.Machine.execPktEncrypt csum key len s
  | .pktDecrypt csum key len => Sys2Proof.Machine.execPktDecrypt csum key len s

end Sys2Proof.Machine
end

