-- ==== Sys2Proof/Machine/HostAccess.lean ====
section
/-! DEFINITION. The HOST's accesses (20_memory.md R52 to R55, 60_exceptions.md R210, R211). -/

namespace Sys2Proof.Machine

/-- The register number of `CMD` (R80). -/
def cmdNumber : Nat := 4

/-- The register number of `STATUS` (R80). -/
def statusNumber : Nat := 5

/-- The value of a register that is readable while the engine is not busy (R52, R80). -/
def registerValue (r : Nat) (s : State) : Option Reply :=
  match r with
  | 0 => some (.half s.op)
  | 1 => some (.half s.csum)
  | 2 => some (.word s.key.toWord)
  | 3 => some (.dword s.len)
  | 6 => some (.dword s.sum)
  | _ => none

/-- The width a refused read of register `r` has; a reserved number has none, and the widest stands for it (log 6). -/
def replyShape (r : Nat) (v : Word64) : Reply :=
  match r with
  | 0 => .half (v.setWidth 16)
  | 1 => .half (v.setWidth 16)
  | 2 => .word (v.setWidth 32)
  | _ => .dword v

/-- `RegRead(r)` (R52). -/
def regRead (r : Nat) (s : State) : State :=
  if r = statusNumber then reply (.half s.status) s
  else if r = cmdNumber then reply (.byte 0#8) s
  else
    match registerValue r s with
    | some v => if s.busy then refuseRead (replyShape r) s else reply v s
    | none => refuseRead (replyShape r) s

/-- The register a write changes, for the writable numbers (R53, R80). -/
def writeRegister (r : Nat) (v : Word64) (s : State) : Option State :=
  match r with
  | 0 => some { s with op := v.setWidth 16 }
  | 1 => some { s with csum := v.setWidth 16 }
  | 2 => some { s with key := Keyword.ofWord (v.setWidth 32) }
  | 3 => some { s with len := v }
  | _ => none

/-- Issue the command `c` (R31, R181). A reserved code is refused (R79); every other code is decoded and executed, and
its meaning begins with the rest of R181. -/
def issueCommand (c : Byte) (s : State) : Host.Outcome State Fault Refusal :=
  match decodeCommand c with
  | .ok i => exec i s
  | .error _ => .next (hostError s)

/-- `RegWrite(r, v)` (R53). -/
def regWrite (r : Nat) (v : Word64) (s : State) : Host.Outcome State Fault Refusal :=
  if r = cmdNumber then issueCommand (v.setWidth 8) s
  else
    match writeRegister r v s with
    | some t => .next (if s.busy then hostError s else t)
    | none => .next (hostError s)

/-- A payload access is granted (R54, R55). -/
def payloadAccess (a : Nat) (s : State) : Bool := decide (a < s.params.maxPayload) && !s.busy

/-- `PayRead(a)` (R54). -/
def payRead (a : Nat) (s : State) : State :=
  if payloadAccess a s then draw (reply (.byte (payByte s a)) s)
  else refuseRead (fun v => .byte (v.setWidth 8)) s

/-- `PayWrite(a, b)` (R55). -/
def payWrite (a : Nat) (b : Byte) (s : State) : State :=
  if payloadAccess a s then { s with pay := s.pay.write a b } else hostError s

/-- One host access (R52 to R55). -/
def hostAccess (a : Access) (s : State) : Host.Outcome State Fault Refusal :=
  match a with
  | .regRead r => .next (regRead r s)
  | .regWrite r v => regWrite r v s
  | .payRead a => .next (payRead a s)
  | .payWrite a b => .next (payWrite a b s)

end Sys2Proof.Machine
end

