-- ==== Sys2Proof/Machine/Turns.lean ====
section
/-! DEFINITION. What each agent does in its turn (R11): the host, the link (R39, R57, R58), the engine, and reset
(R230, R231); and where the next instruction is fetched. -/

namespace Sys2Proof.Machine

/-- A step of the LINK. Bytes are delivered only while `RXEOF = 0` (R39, log 10). -/
def linkStep (e : LinkEvent) (s : State) : State :=
  match e with
  | .rx bs => if s.rxeof then s else { s with rxq := s.rxq ++ bs }
  | .eof => { s with rxeof := true }
  | .tx a => { s with txPlan := s.txPlan ++ [a] }

/-- The reset event (R230, R231): every item of R40, and a fresh link. The parameters, the agenda and the host's own
record of what it has read are not the block's and stay (log 15). -/
def resetEvent (s : State) : State :=
  { State.reset with
    params := s.params, agenda := s.agenda, pace := s.pace, reads := s.reads, draws := s.draws }

/-- The packet operation that the engine's turn fetches, and the state it runs from: `SERVE` awaits a header, 16 bytes
have arrived (R57), and their operation field is recognised (R74). -/
def fetchPacket (s : State) : Option (Instr × State) :=
  if awaitsPacket s && decide (Config.headerBytes ≤ s.rxq.length) then
    match decode s.params.hostOrder .pkt (s.rxq.take Config.headerBytes) with
    | .ok i => some (i, { s with rxq := s.rxq.drop Config.headerBytes })
    | .error _ => none
  else none

/-- The engine's turn: a packet operation that can be fetched is executed; otherwise the engine takes its step, and
while no step is enabled nothing changes (R57, U12). -/
def engineTurn (s : State) : Host.Outcome State Fault Refusal :=
  match fetchPacket s with
  | some (i, t) => exec i t
  | none => .next (engineRun s)

/-- The host's `WAIT` (R86): one `RD STATUS`; while it showed `BUSY = 1` the engine gets a turn and the host reads
again (log 16). -/
def waitStep (s : State) : State :=
  let t := regRead statusNumber s
  if s.busy then { t with agenda := .engine :: .wait :: t.agenda } else t

/-- One agent's turn. -/
def takeTurn (t : Turn) (s : State) : Host.Outcome State Fault Refusal :=
  match t with
  | .host a => hostAccess a s
  | .wait => .next (waitStep s)
  | .link e => .next (linkStep e s)
  | .engine => engineTurn s
  | .reset => .next (resetEvent s)
  | .setPace p => .next { s with pace := p }

/-- Place a command word: the host's next access is a write of it to `CMD` (R31, R77). -/
def placeCommand (w : Nat) (s : State) : State :=
  { s with agenda := .host (.regWrite cmdNumber (BitVec.ofNat 64 (w % 256))) :: s.agenda }

/-- Place a packet header: `SERVE` awaits a packet, and these bytes are the next ones delivered (log 13). -/
def placePacket (bs : Bytes) (s : State) : State :=
  { s with
    state := .receiving, seq := true, hdrTaken := false, conn := true
    rxq := bs ++ s.rxq, agenda := .engine :: s.agenda }

end Sys2Proof.Machine
end

