-- ==== Sys2Proof/Machine/Step.lean ====
section
/-! DEFINITION. The step: the agent whose turn is next takes it (R11); with no turn listed the engine has it. -/

namespace Sys2Proof.Machine

/-- One step of the machine. -/
def step (s : State) : Host.Outcome State Fault Refusal :=
  match s.agenda with
  | [] => engineTurn s
  | t :: rest => takeTurn t { s with agenda := rest }

/-- `s` with the instruction whose table word is `w` placed where the next step fetches it: a command as the host's
next write to `CMD`, a packet header as the next bytes `SERVE` receives (log 13). -/
def State.withFetchWord (s : State) (nbits w : Nat) : State :=
  match tableFormat nbits with
  | some .cmd => placeCommand w s
  | some .pkt => placePacket (tableBytes nbits w) s
  | none => s

end Sys2Proof.Machine
end

