-- ==== Sys2Proof/Machine/Instances.lean ====
section
/-! DEFINITION. Several instances (60_exceptions.md R217): each has its own registers, payload memory and link, so a
system is a list of states and a step of one instance is a step of its own state. -/

namespace Sys2Proof.Machine

/-- The system after instance `k` has taken a step; a step that does not answer a next state leaves it as it was. Every
instance draws its free values from the same constants of Config, so two instances with equal `draws` draw equal ones
(DESIGN CHOICE, log 17). -/
def stepAt (k : Nat) (system : List State) : List State :=
  system.modify k fun s =>
    match step s with
    | .next t => t
    | .fault _ => s
    | .refused _ => s

end Sys2Proof.Machine
end

