-- ==== Sys2Proof/Safety.lean ====
section
/-! DEFINITION. What a sound state is, and the words claims are stated in: the machine's invariant, the transition table
of the engine (43_sequencer.md R190), conditions under which a command runs to its end, and what it then leaves. -/

namespace Sys2Proof.Machine

/-! ### Conditions -/

/-- The length the header names passes R182. -/
def lengthOk (s : State) : Prop :=
  16 ≤ s.len.toNat ∧ s.len.toNat - 16 ≤ s.params.maxPayload

/-- `IDLE`, with no `SERVE` running: the state in which every command is accepted (R181, R189). -/
def idleNow (s : State) : Prop := s.state = .idle ∧ s.seq = false

/-- Every byte of the current payload has been written since reset (R51, R239). -/
def payloadWritten (s : State) : Prop := ∀ a, a < s.payloadSize → (s.pay.read a).isSome = true

/-- The states whose phases walk the packet, which R182 has checked. -/
def SeqState.walks : SeqState → Bool
  | .verifying => true
  | .encrypting => true
  | .decrypting => true
  | .summing => true
  | .sending => true
  | _ => false

/-- The states of `SERVE` after its `VERIFYING` step. -/
def SeqState.afterVerify : SeqState → Bool
  | .encrypting => true
  | .decrypting => true
  | .summing => true
  | .sending => true
  | _ => false

/-! ### The invariant -/

/-- What holds of every state a run from reset reaches. -/
structure State.Inv (s : State) : Prop where
  /-- `PAY` is in its canonical form. -/
  canonical : s.pay.wf
  /-- `PAY` has `MAX_PAYLOAD` bytes (R51). -/
  inRange : s.pay.inRange s.params.maxPayload
  /-- `ERR` is 0 exactly outside `REJECTED` (R30, R209). -/
  cause : s.err = .none ↔ s.state ≠ .rejected
  /-- In a terminal state the link is closed (R187, R206). -/
  linkClosed : s.state.terminal = true → s.conn = false
  /-- `SEQ = 1` only while `SERVE` runs (R189). -/
  sequence : s.seq = true → s.state.busy = true
  /-- Between the two receive steps (log 18) the length has passed its tests (R100). -/
  header : s.hdrTaken = true → s.state = .receiving ∧ lengthOk s
  /-- Between the two receive steps `VOK = 0` (R100, R102). -/
  unverified : s.hdrTaken = true → s.vok = false
  /-- No phase walks a packet whose length has not passed R182 (R66). -/
  length : s.state.walks = true → lengthOk s
  /-- No transform runs with a keyword that `check_key` refuses (R156). -/
  keyword : s.state = .encrypting ∨ s.state = .decrypting → keyValid s.key = true
  /-- What `SERVE` has established once it is past `VERIFYING` (R185, R191). -/
  served : s.seq = true → s.state.afterVerify = true →
    s.vok = true ∧ keyValid s.key = true ∧
      (s.state = .encrypting → operation s.op = some .encrypt) ∧
      (s.state = .decrypting → operation s.op = some .decrypt) ∧ operation s.op ≠ none
  /-- `CLOSED` means that the packet's checksum matched (R191). -/
  closedMatched : s.state = .closed → s.vok = true
  /-- `BADSUM` leaves `VOK = 0` (R207). -/
  badSum : s.err = .badSum → s.vok = false
  /-- `BADOP` is raised only after the checksum matched (R204, R207). -/
  badOp : s.err = .badOp → s.vok = true

/-! ### The transition table of the engine (R190) -/

/-- The rows of R190 whose event is a step of the engine, and the first receive step, which stays in `RECEIVING`
(R101). -/
def engineTransition (seq : Bool) : SeqState → SeqState → Bool
  | .receiving, .receiving => true
  | .receiving, .verifying => seq
  | .receiving, .idle => !seq
  | .receiving, .rejected => true
  | .verifying, .encrypting => seq
  | .verifying, .decrypting => seq
  | .verifying, .rejected => seq
  | .verifying, .idle => !seq
  | .encrypting, .summing => true
  | .decrypting, .summing => true
  | .summing, .sending => seq
  | .summing, .idle => !seq
  | .sending, .closed => seq
  | .sending, .idle => !seq
  | .sending, .rejected => true
  | _, _ => false

/-! ### Results -/

/-- `PAY[0 +: |bs|]` is `bs`. -/
def payloadIs (m : Memory) (bs : Bytes) : Prop := ∀ a, a < bs.length → m.read a = bs[a]?

/-- Every byte of `PAY` from `n` on reads as before. -/
def payloadKeptFrom (n : Nat) (m m' : Memory) : Prop := ∀ a, n ≤ a → m'.read a = m.read a

/-- The transform as a function of payload and keyword (R157, R158). -/
def transformPayload (d : Direction) (p : Bytes) (key : Keyword) : Bytes :=
  match d with
  | .encrypt => encrypt p key
  | .decrypt => decrypt p key

/-- The number of letters of a payload, which is what `KIDX` counts modulo 4 (R34, R156). -/
def letterCount (p : Bytes) : Nat := p.countP isLetter

/-- The image the checksum of header `h` and payload `p` covers (R73, R121). -/
def checksumImage (o : ByteOrder) (h : Header) (p : Bytes) : Bytes := headerImage o { h with csum := 0#16 } ++ p

/-- The part of the state that is neither the packet, the datapath, the sequencer nor the link. -/
def sameSurroundings (s t : State) : Prop :=
  t.herr = s.herr ∧ t.params = s.params ∧ t.agenda = s.agenda ∧ t.pace = s.pace ∧ t.reads = s.reads ∧ t.rxeof = s.rxeof

/-- The state holds the packet of header `h` and payload `p`; the rest of `PAY` is that of `s`. -/
def holdsPacket (h : Header) (p : Bytes) (s t : State) : Prop :=
  t.header = h ∧ payloadIs t.pay p ∧ payloadKeptFrom p.length s.pay t.pay

/-- The rejection entry has been taken with cause `c` (R206). -/
def rejectedWith (c : Cause) (t : State) : Prop :=
  t.err = c ∧ t.conn = false ∧ t.seq = false ∧ t.state = .rejected

/-- The header of the response to the packet of header `h` and payload `p` (R185): the request's, with the checksum of
the transformed payload. -/
def responseHeader (o : ByteOrder) (d : Direction) (h : Header) (p : Bytes) : Header :=
  { h with csum := cksum o (checksumImage o h (transformPayload d p h.key)) }

/-- The bytes of that response. -/
def response (o : ByteOrder) (d : Direction) (h : Header) (p : Bytes) : Bytes :=
  headerImage o (responseHeader o d h p) ++ transformPayload d p h.key

/-- `t` is how `SERVE` stands once it has transformed the packet and recomputed its checksum, from `s` (R185, R207): the
response in the packet state, and the receive stream past the packet. -/
def responseReady (d : Direction) (h : Header) (p rest : Bytes) (s t : State) : Prop :=
  let o := s.params.hostOrder
  let q := transformPayload d p h.key
  holdsPacket (responseHeader o d h p) q s t ∧ t.sum = accumulate o (checksumImage o h q) ∧
    t.kidx = BitVec.ofNat 2 (letterCount p) ∧ t.vok = true ∧ t.rxcsum = h.csum ∧ t.rxq = rest ∧ t.hdrTaken = false ∧
    sameSurroundings s t

/-- The `SENDING` step has been answered `ok` (R185, R187): `CLOSED`, the whole response sent. -/
def servedFrom (d : Direction) (h : Header) (p rest : Bytes) (plan : List TxAnswer) (s t : State) : Prop :=
  responseReady d h p rest s t ∧ t.state = .closed ∧ t.seq = false ∧ t.conn = false ∧ t.err = s.err ∧
    t.txlog = s.txlog ++ response s.params.hostOrder d h p ∧ t.txPlan = plan

/-- The `SENDING` step has failed (R207, last row): `TXFAIL`, a proper prefix of the response sent. -/
def sendFailedFrom (d : Direction) (h : Header) (p rest : Bytes) (plan : List TxAnswer) (s t : State) : Prop :=
  responseReady d h p rest s t ∧ rejectedWith .txFail t ∧
    (∃ k, k < (response s.params.hostOrder d h p).length ∧
      t.txlog = s.txlog ++ (response s.params.hostOrder d h p).take k) ∧ t.txPlan = plan

/-- The `SENDING` step holds (R58, R105): nothing sent, and no step of the engine is enabled. -/
def sendHeldFrom (d : Direction) (h : Header) (p rest : Bytes) (s t : State) : Prop :=
  responseReady d h p rest s t ∧ t.state = .sending ∧ t.seq = true ∧ t.conn = true ∧ t.err = s.err ∧
    t.txlog = s.txlog ∧ t.txPlan = [] ∧ engineStep t = none

/-- The three outcomes of serving a good packet, by the LINK's answer to the send. -/
def serveOutcomes (d : Direction) (h : Header) (p rest : Bytes) (s : State)
    (o : Host.Outcome State Fault Refusal) : Prop :=
  (∀ plan, s.txPlan = .ok :: plan → ∃ t, o = .next t ∧ servedFrom d h p rest plan s t) ∧
  (∀ n plan, s.txPlan = .fail n :: plan → ∃ t, o = .next t ∧ sendFailedFrom d h p rest plan s t) ∧
  (s.txPlan = [] → ∃ t, o = .next t ∧ sendHeldFrom d h p rest s t)

/-- `t` is what a standalone transform leaves, from `s` (R159, R160): the payload transformed in place, `KIDX`, and the
recomputed `SUM` and `CSUM`; everything else as it was. -/
def transformedFrom (d : Direction) (s t : State) : Prop :=
  let o := s.params.hostOrder
  let q := transformPayload d s.payload s.key
  payloadIs t.pay q ∧ payloadKeptFrom q.length s.pay t.pay ∧
    t.kidx = BitVec.ofNat 2 (letterCount s.payload) ∧
    t.sum = accumulate o (checksumImage o s.header q) ∧ t.csum = cksum o (checksumImage o s.header q) ∧
    t.op = s.op ∧ t.key = s.key ∧ t.len = s.len ∧ t.state = .idle ∧ t.seq = s.seq ∧ t.vok = s.vok ∧ t.err = s.err ∧
    t.conn = s.conn ∧ t.rxcsum = s.rxcsum ∧ t.rxq = s.rxq ∧ t.txlog = s.txlog ∧ t.txPlan = s.txPlan ∧
    t.hdrTaken = s.hdrTaken ∧ sameSurroundings s t

/-- The verdict of `SERVE` on a packet whose length is well formed, in R84's order; none when it is served. -/
def verdict (o : ByteOrder) (h : Header) (p : Bytes) : Option Cause :=
  if cksum o (checksumImage o h p) ≠ h.csum then some .badSum
  else if operation h.op = none then some .badOp
  else if keyValid h.key = false then some .badKey
  else none

/-- The accesses that are host errors (R211, its whole list). -/
def isHostError (a : Access) (s : State) : Bool :=
  match a with
  | .regRead r => (decide (r = 0 ∨ r = 1 ∨ r = 2 ∨ r = 3 ∨ r = 6) && s.busy) || decide (7 ≤ r)
  | .regWrite r v =>
    if r = 4 then
      s.busy || decide (8 < (v.setWidth 8).toNat) ||
        (s.state.terminal && decide (v.setWidth 8 ≠ 0#8) && decide (v.setWidth 8 ≠ 1#8))
    else (decide (r ≤ 3) && s.busy) || decide (r = 5 ∨ r = 6) || decide (7 ≤ r)
  | .payRead a => s.busy || decide (s.params.maxPayload ≤ a)
  | .payWrite a _ => s.busy || decide (s.params.maxPayload ≤ a)

end Sys2Proof.Machine
end

