-- ==== Sys2Proof/Certificates/Slice0/Obligations.lean ====
section
/-! DEFINITION. The statements for the provers: what CS341-CSC does, from the numbered rules of spec/. "The model's own"
marks what rests on a log entry. -/

open Sys2Proof Sys2Proof.Machine

/-! ### Encoding and fetch -/

/-- Decoding the encoding of an instruction gives it back, in either byte order (R71, R72, R75, R78). -/
def Obligations.DecodeEncodeAgree : Prop :=
  ∀ (o : ByteOrder) (i : Instr), decode o i.format (encode o i) = .ok i

/-- R72: the sixteen bytes of the header image, one by one, and `HDR`, the image of the present registers. -/
def Obligations.HeaderImageBytes : Prop :=
  (∀ s : State, s.hdr = headerImage s.params.hostOrder { op := s.op, csum := s.csum, key := s.key, len := s.len }) ∧
  ∀ (o : ByteOrder) (h : Header),
    headerImage o h =
      [h.op.extractLsb' 8 8, h.op.extractLsb' 0 8] ++
      (match o with
        | .be => [h.csum.extractLsb' 8 8, h.csum.extractLsb' 0 8]
        | .le => [h.csum.extractLsb' 0 8, h.csum.extractLsb' 8 8]) ++
      [h.key.k0, h.key.k1, h.key.k2, h.key.k3] ++
      [h.len.extractLsb' 56 8, h.len.extractLsb' 48 8, h.len.extractLsb' 40 8, h.len.extractLsb' 32 8,
        h.len.extractLsb' 24 8, h.len.extractLsb' 16 8, h.len.extractLsb' 8 8, h.len.extractLsb' 0 8]

/-- R75: what each field of a parsed header is, and that parsing and serialising are inverse. -/
def Obligations.HeaderParseInverse : Prop :=
  (∀ (o : ByteOrder) (b0 b1 b2 b3 b4 b5 b6 b7 b8 b9 b10 b11 b12 b13 b14 b15 : Byte),
    parseHeader o [b0, b1, b2, b3, b4, b5, b6, b7, b8, b9, b10, b11, b12, b13, b14, b15] =
      { op := b0 ++ b1
        csum := match o with | .be => b2 ++ b3 | .le => b3 ++ b2
        key := { k0 := b4, k1 := b5, k2 := b6, k3 := b7 }
        len := b8 ++ b9 ++ b10 ++ b11 ++ b12 ++ b13 ++ b14 ++ b15 }) ∧
  (∀ (o : ByteOrder) (h : Header), parseHeader o (headerImage o h) = h) ∧
  (∀ (o : ByteOrder) (bs : Bytes), bs.length = 16 → headerImage o (parseHeader o bs) = bs)

/-- Words written out from the encodings of R71 and R78 decode to what they stand for; a reserved code and an
unrecognised operation do not decode. -/
def Obligations.SpecWordsDecode : Prop :=
  decodeTableWord 8 0x03 = some .gen ∧ decodeTableWord 8 0x05 = some .enc ∧ decodeTableWord 8 0x08 = some .serve ∧
  decodeTableWord 8 0x09 = none ∧
  decodeTableWord 128 0x000085e3616263640000000000000015 =
    some (.pktEncrypt 0x85e3#16 { k0 := 0x61#8, k1 := 0x62#8, k2 := 0x63#8, k3 := 0x64#8 } 21#64) ∧
  decodeTableWord 128 0x0001e9bf6b657973000000000000001f =
    some (.pktDecrypt 0xe9bf#16 { k0 := 0x6b#8, k1 := 0x65#8, k2 := 0x79#8, k3 := 0x73#8 } 31#64) ∧
  decodeTableWord 128 0x000285e1616263640000000000000015 = none

/-- The model's own (turns: log 1; where an instruction is fetched: log 13, since R2 and R27 say that the block fetches
none): a step runs the decoded instruction. A host's turn that writes a code which decodes to `i` to `CMD` makes the step
`exec i`, with the turn used up; and while `SERVE` awaits a packet and 16 bytes that decode to `i` have arrived, the
engine's turn, listed or not, is `exec i`, with those 16 bytes taken. -/
def Obligations.StepRunsDecodedInstruction : Prop :=
  (∀ (s : State) (v : Word64) (rest : List Turn) (i : Instr),
    s.agenda = .host (.regWrite 4 v) :: rest → decode s.params.hostOrder .cmd [v.setWidth 8] = .ok i →
      step s = exec i { s with agenda := rest }) ∧
  (∀ (s : State) (rest : List Turn) (i : Instr),
    (s.agenda = .engine :: rest ∨ (s.agenda = [] ∧ rest = [])) →
      s.state = .receiving → s.seq = true → s.hdrTaken = false → s.conn = true → 16 ≤ s.rxq.length →
      decode s.params.hostOrder .pkt (s.rxq.take 16) = .ok i →
        step s = exec i { s with agenda := rest, rxq := s.rxq.drop 16 })

/-- The model's own (log 13): the word that `withFetchWord` places is what the next step runs, for a command in any
state and for a packet operation under the hardware's byte order. -/
def Obligations.PlacedWordIsRun : Prop :=
  (∀ (s : State) (w : Nat) (i : Instr), decodeTableWord 8 w = some i → step (s.withFetchWord 8 w) = exec i s) ∧
  (∀ (s : State) (w : Nat) (i : Instr), s.params.hostOrder = .be → decodeTableWord 128 w = some i →
    step (s.withFetchWord 128 w) =
      exec i { s with state := .receiving, seq := true, hdrTaken := false, conn := true })

/-! ### The machine as a whole -/

/-- A step always answers a next state: rejections and host errors are states, and nothing stops the block. -/
def Obligations.StepAlwaysAnswers : Prop := ∀ s : State, ∃ t, step s = .next t

/-- Every step keeps the invariant. -/
def Obligations.StepKeepsInvariant : Prop := ∀ s t : State, s.Inv → step s = .next t → t.Inv

/-- The reset state meets the invariant. -/
def Obligations.ResetMeetsInvariant : Prop := State.reset.Inv

/-- The model's own (the two granularities: log 4, after R180): merging enabled steps, also those that can hold, changes
nothing but the number of turns. What an instruction leaves when the pace is merged, it leaves when the pace is phased
after at most six further turns of the engine. -/
def Obligations.MergedPaceIsPhasedTurns : Prop :=
  ∀ (i : Instr) (s t u : State),
    exec i { s with pace := .merged } = .next t → exec i { s with pace := .phased } = .next u →
      ∃ n, n ≤ 6 ∧
        Host.Core.run Sys2Proof.core n ({ u with agenda := List.replicate n .engine ++ u.agenda } : State) =
          .next ({ t with pace := .phased } : State)

/-- R243: six engine steps exhaust any command; then no engine step is enabled, because the command has ended or the
engine holds on the link. -/
def Obligations.EngineRunEnds : Prop := ∀ s : State, engineStep (runEngine 6 s) = none

/-- R190: every step of the engine moves `STATE` along a row of the transition table. -/
def Obligations.EngineFollowsTransitionTable : Prop :=
  ∀ s t : State, engineStep s = some t → engineTransition s.seq s.state t.state = true

/-- R59: the parameters are fixed while the block runs. -/
def Obligations.ParametersNeverChange : Prop := ∀ s t : State, step s = .next t → t.params = s.params

/-- R190, last row, and R209: a terminal state, its cause, its closed link and its `TXLOG` stay until `CLEAR` or reset. -/
def Obligations.TerminalLeftOnlyByClearOrReset : Prop :=
  ∀ s t : State, s.state.terminal = true → step s = .next t →
    s.agenda.head? ≠ some .reset →
    (∀ v, s.agenda.head? = some (.host (.regWrite 4 v)) → v.setWidth 8 ≠ 1#8) →
      t.state = s.state ∧ t.err = s.err ∧ t.conn = s.conn ∧ t.txlog = s.txlog

/-- R210: `HERR` stays 1 until an accepted `CLEAR` or reset. -/
def Obligations.HostErrorIsSticky : Prop :=
  ∀ s t : State, s.herr = true → step s = .next t →
    s.agenda.head? ≠ some .reset →
    (∀ v, s.agenda.head? = some (.host (.regWrite 4 v)) → v.setWidth 8 = 1#8 → s.busy = true) →
      t.herr = true

/-- R37, R187: nothing but reset sets `CONN` again. -/
def Obligations.OnlyResetReopensLink : Prop :=
  ∀ s t : State, s.conn = false → step s = .next t → t.conn = true → s.agenda.head? = some .reset

/-- R63, R191, R212: no step but reset removes or changes a byte of `TXLOG`, and one that ends in a rejection other than
`TXFAIL` appends nothing. -/
def Obligations.TransmitLogOnlyGrows : Prop :=
  ∀ s t : State, step s = .next t → s.agenda.head? ≠ some .reset →
    (∃ sent, t.txlog = s.txlog ++ sent) ∧
    (t.state = .rejected → t.err ≠ .txFail → t.txlog = s.txlog)

/-- R11, R39, R57, R58: what a listed turn of the host and of the LINK does (turns: log 1). The host's access is made, with
its turn used up. The LINK appends bytes to `RXQ` while `RXEOF = 0`, sets `RXEOF`, and answers a `TxPut`. The model's own:
answers queue up (log 5), and bytes after `RXEOF` do nothing (log 10). -/
def Obligations.HostAndLinkTurns : Prop :=
  (∀ (s : State) (a : Access) (rest : List Turn), s.agenda = .host a :: rest →
    step s = hostAccess a { s with agenda := rest }) ∧
  (∀ (s : State) (bs : Bytes) (rest : List Turn), s.agenda = .link (.rx bs) :: rest →
    (s.rxeof = false → step s = .next { s with agenda := rest, rxq := s.rxq ++ bs }) ∧
    (s.rxeof = true → step s = .next { s with agenda := rest })) ∧
  (∀ (s : State) (rest : List Turn), s.agenda = .link .eof :: rest →
    step s = .next { s with agenda := rest, rxeof := true }) ∧
  (∀ (s : State) (answer : TxAnswer) (rest : List Turn), s.agenda = .link (.tx answer) :: rest →
    step s = .next { s with agenda := rest, txPlan := s.txPlan ++ [answer] })

/-! ### Reset and the view STATUS -/

/-- R40, R231: the reset event, in every state, gives every item the value of the table. The model's own: an unspecified
byte of `PAY` is one with no value (log 2), and what reset keeps (log 15). Two states that agree on what reset keeps are
the same state after it, so nothing else of the time before is left (R217: an instance reset between connections); that
this holds of the unspecified `POS` and `RXCSUM` too rests on their reset value 0 (log 3, the model's own). -/
def Obligations.ResetGivesTableValues : Prop :=
  (∀ (s : State) (rest : List Turn), s.agenda = .reset :: rest →
    ∃ t, step s = .next t ∧ t.op = 0x0000#16 ∧ t.csum = 0x0000#16 ∧
      t.key = { k0 := 0#8, k1 := 0#8, k2 := 0#8, k3 := 0#8 } ∧ t.len = 16#64 ∧ t.sum = 0#64 ∧ t.kidx = 0#2 ∧
      t.state = .idle ∧ t.seq = false ∧ t.vok = false ∧ t.herr = false ∧ t.err = .none ∧ t.conn = true ∧
      (∀ a, t.pay.read a = none) ∧
      t.rxq = [] ∧ t.txlog = [] ∧ t.rxeof = false ∧ t.status = 0x4000#16 ∧ t.params = s.params ∧ t.agenda = rest) ∧
  (∀ (s s' : State) (rest : List Turn), s.agenda = .reset :: rest → s'.agenda = .reset :: rest →
    s.params = s'.params → s.pace = s'.pace → s.reads = s'.reads → s.draws = s'.draws → step s = step s')

/-- R32: each field of `STATUS`, bit by bit. -/
def Obligations.StatusLayout : Prop :=
  (∀ s : State,
    s.status.extractLsb' 0 4 = s.state.code ∧ s.status.getLsbD 4 = s.busy ∧ s.status.getLsbD 5 = s.seq ∧
    s.status.getLsbD 6 = s.vok ∧ s.status.getLsbD 7 = s.herr ∧ s.status.extractLsb' 8 4 = s.err.code ∧
    s.status.extractLsb' 12 2 = s.kidx ∧ s.status.getLsbD 14 = s.conn ∧ s.status.getLsbD 15 = false) ∧
  (∀ s : State, hostAccess (.regRead 5) s = .next { s with reads := s.reads ++ [.half s.status] }) ∧
  (∀ (s : State) (v : Word64), hostAccess (.regWrite 5 v) s = .next { s with herr := true }) ∧
  State.reset.status = 0x4000#16

/-! ### Host accesses -/

/-- R52: what `RegRead` returns, and when it is refused. -/
def Obligations.RegisterReadReturns : Prop :=
  ∀ s : State,
    hostAccess (.regRead 5) s = .next { s with reads := s.reads ++ [.half s.status] } ∧
    hostAccess (.regRead 4) s = .next { s with reads := s.reads ++ [.byte 0#8] } ∧
    (s.busy = false →
      hostAccess (.regRead 0) s = .next { s with reads := s.reads ++ [.half s.op] } ∧
      hostAccess (.regRead 1) s = .next { s with reads := s.reads ++ [.half s.csum] } ∧
      hostAccess (.regRead 2) s =
        .next { s with reads := s.reads ++ [.word (s.key.k0 ++ s.key.k1 ++ s.key.k2 ++ s.key.k3)] } ∧
      hostAccess (.regRead 3) s = .next { s with reads := s.reads ++ [.dword s.len] } ∧
      hostAccess (.regRead 6) s = .next { s with reads := s.reads ++ [.dword s.sum] }) ∧
    (∀ r, (r = 0 ∨ r = 1 ∨ r = 2 ∨ r = 3 ∨ r = 6) ∧ s.busy = true ∨ 7 ≤ r →
      ∃ v, hostAccess (.regRead r) s =
        .next { s with herr := true, reads := s.reads ++ [v], draws := s.draws + 1 })

/-- R53: what `RegWrite` stores, and when it is refused; register 4 issues the command (R181). -/
def Obligations.RegisterWriteStores : Prop :=
  ∀ (s : State) (v : Word64),
    (s.busy = false →
      (∀ w : Half, hostAccess (.regWrite 0 (w.setWidth 64)) s = .next { s with op := w }) ∧
      (∀ w : Half, hostAccess (.regWrite 1 (w.setWidth 64)) s = .next { s with csum := w }) ∧
      (∀ w : Word32, hostAccess (.regWrite 2 (w.setWidth 64)) s =
        .next { s with key := { k0 := w.extractLsb' 24 8, k1 := w.extractLsb' 16 8,
                                k2 := w.extractLsb' 8 8, k3 := w.extractLsb' 0 8 } }) ∧
      hostAccess (.regWrite 3 v) s = .next { s with len := v }) ∧
    (∀ i, decodeCommand (v.extractLsb' 0 8) = .ok i → hostAccess (.regWrite 4 v) s = exec i s) ∧
    (8 < (v.extractLsb' 0 8).toNat → hostAccess (.regWrite 4 v) s = .next { s with herr := true }) ∧
    (∀ r, (r = 5 ∨ r = 6 ∨ 7 ≤ r) ∨ r ≤ 3 ∧ s.busy = true →
      hostAccess (.regWrite r v) s = .next { s with herr := true })

/-- R54, R55: `PayRead` returns a byte, the one last written at its address if there is one; `PayWrite` changes the byte
at its address, and no other byte and no other state; out of range or while busy each is refused. -/
def Obligations.PayloadAccess : Prop :=
  ∀ (s : State) (a : Nat),
    (a < s.params.maxPayload → s.busy = false →
      ∃ v, hostAccess (.payRead a) s = .next { s with reads := s.reads ++ [.byte v], draws := s.draws + 1 } ∧
        ∀ b, s.pay.read a = some b → v = b) ∧
    (∀ b, a < s.params.maxPayload → s.busy = false →
      ∃ m, hostAccess (.payWrite a b) s = .next { s with pay := m } ∧ m.read a = some b ∧
        ∀ a', a' ≠ a → m.read a' = s.pay.read a') ∧
    (s.params.maxPayload ≤ a ∨ s.busy = true →
      (∃ v, hostAccess (.payRead a) s =
        .next { s with herr := true, reads := s.reads ++ [v], draws := s.draws + 1 }) ∧
      ∀ b, hostAccess (.payWrite a b) s = .next { s with herr := true })

/-- R211: an access sets `HERR` exactly when the list names it (for an access in a state whose `HERR` is 0). -/
def Obligations.HostErrorsAreTheList : Prop :=
  ∀ (a : Access) (s t : State), s.herr = false → hostAccess a s = .next t → (t.herr = true ↔ isHostError a s = true)

/-- R62, R235: while the engine is busy a host access changes nothing but `HERR` and the host's own record, and a
command or a write is refused. -/
def Obligations.BusyHostCannotDisturb : Prop :=
  ∀ (a : Access) (s : State), s.busy = true →
    ∃ t, hostAccess a s = .next t ∧ t = { s with herr := t.herr, reads := t.reads, draws := t.draws } ∧
      (a ≠ .regRead 4 → a ≠ .regRead 5 → t.herr = true) ∧
      (a = .regRead 4 ∨ a = .regRead 5 → t.herr = s.herr)

/-- R181: acceptance of a command written to register 4. -/
def Obligations.CommandAcceptance : Prop :=
  ∀ (s : State) (v : Word64),
    let c := v.extractLsb' 0 8
    (s.busy = true → hostAccess (.regWrite 4 v) s = .next { s with herr := true }) ∧
    (8 < c.toNat → hostAccess (.regWrite 4 v) s = .next { s with herr := true }) ∧
    (s.busy = false → c = 0#8 → hostAccess (.regWrite 4 v) s = .next s) ∧
    (s.busy = false → c = 1#8 → hostAccess (.regWrite 4 v) s = .next (clearPacket s)) ∧
    (s.state.terminal = true → c ≠ 0#8 → c ≠ 1#8 → hostAccess (.regWrite 4 v) s = .next { s with herr := true }) ∧
    (s.state = .idle → c.toNat ≤ 8 → ∃ i, decodeCommand c = .ok i ∧ hostAccess (.regWrite 4 v) s = exec i s)

/-! ### Commands: what they do and what they leave alone -/

/-- R183: `NOP` changes nothing where it is accepted, and is refused while busy. -/
def Obligations.NopDoesNothing : Prop :=
  decodeCommand 0x00#8 = .ok .nop ∧
  ∀ s : State, (s.busy = false → exec .nop s = .next s) ∧ (s.busy = true → exec .nop s = .next { s with herr := true })

/-- R184: `CLEAR` constructs an empty packet and leaves a terminal state; `PAY`, `CONN` and the link stay. -/
def Obligations.ClearEmptiesPacket : Prop :=
  decodeCommand 0x01#8 = .ok .clear ∧
  ∀ s : State,
    (s.busy = false → ∃ t, exec .clear s = .next t ∧ t.op = 0#16 ∧ t.csum = 0#16 ∧
      t.key = { k0 := 0#8, k1 := 0#8, k2 := 0#8, k3 := 0#8 } ∧ t.len = 16#64 ∧ t.sum = 0#64 ∧ t.kidx = 0#2 ∧
      t.vok = false ∧ t.herr = false ∧ t.err = .none ∧ t.seq = false ∧ t.state = .idle ∧
      t.pay = s.pay ∧ t.conn = s.conn ∧ t.rxq = s.rxq ∧ t.rxeof = s.rxeof ∧ t.txlog = s.txlog ∧
      t.txPlan = s.txPlan ∧ t.params = s.params ∧ t.agenda = s.agenda ∧ t.pace = s.pace ∧ t.reads = s.reads) ∧
    (s.busy = true → exec .clear s = .next { s with herr := true })

/-- R130: `GEN` in `IDLE` with a well-formed length leaves the sum and the checksum of the packet, and changes nothing
else but hidden state. -/
def Obligations.GenStoresChecksum : Prop :=
  ∀ s : State, idleNow s → s.pace = .merged → lengthOk s →
    exec .gen s =
      .next { s with sum := accumulate s.params.hostOrder (checksumImage s.params.hostOrder s.header s.payload)
                     csum := cksum s.params.hostOrder (checksumImage s.params.hostOrder s.header s.payload)
                     pos := s.len, draws := s.draws + 1 }

/-- R131: `VERIFY` in `IDLE` with a well-formed length sets `VOK` to whether the recomputed checksum equals `CSUM`, which
it leaves as it was; a mismatch is no rejection. -/
def Obligations.VerifySetsVok : Prop :=
  ∀ s : State, idleNow s → s.pace = .merged → lengthOk s →
    exec .verify s =
      .next { s with sum := accumulate s.params.hostOrder (checksumImage s.params.hostOrder s.header s.payload)
                     vok := decide (cksum s.params.hostOrder
                       (checksumImage s.params.hostOrder s.header s.payload) = s.csum)
                     rxcsum := s.csum, pos := s.len, draws := s.draws + 1 }

/-- R130, R131: after `GEN` on written payload bytes, a second `GEN` gives the same `CSUM` and `VERIFY` gives
`VOK = 1`. -/
def Obligations.GenThenVerifyMatches : Prop :=
  ∀ s : State, idleNow s → s.pace = .merged → lengthOk s → payloadWritten s →
    ∃ t u v, exec .gen s = .next t ∧ exec .gen t = .next u ∧ u.csum = t.csum ∧ exec .verify t = .next v ∧ v.vok = true

/-- R159, R160: `ENC` and `DEC` transform the payload in place, by `encrypt` and by `decrypt`, and recompute the
checksum, whatever `OP` holds. -/
def Obligations.TransformCommandsResult : Prop :=
  ∀ s : State, idleNow s → s.pace = .merged → lengthOk s → keyValid s.key = true →
    (∃ t, exec .enc s = .next t ∧ transformedFrom .encrypt s t) ∧
    (∃ t, exec .dec s = .next t ∧ transformedFrom .decrypt s t)

/-- R103, R104: `RECV` takes exactly the packet's bytes from `RXQ` and stores them, whatever checksum, operation and
keyword they carry. -/
def Obligations.RecvLoadsPacket : Prop :=
  ∀ (s : State) (h : Header) (p rest : Bytes),
    idleNow s → s.pace = .merged → s.conn = true →
    h.len.toNat = 16 + p.length → p.length ≤ s.params.maxPayload →
    s.rxq = headerImage s.params.hostOrder h ++ p ++ rest →
      ∃ t, exec .recv s = .next t ∧ holdsPacket h p s t ∧ t.rxq = rest ∧ t.vok = false ∧ t.state = .idle ∧
        t.hdrTaken = false ∧ t.sum = s.sum ∧ t.kidx = s.kidx ∧ t.seq = s.seq ∧ t.err = s.err ∧ t.conn = s.conn ∧
        t.pos = s.pos ∧ t.rxcsum = s.rxcsum ∧ t.txlog = s.txlog ∧ t.txPlan = s.txPlan ∧ sameSurroundings s t

/-- R105, R106: the four outcomes of `SEND`: the whole packet appended and the link left open, a proper part appended
and `TXFAIL`, nothing appended and `TXFAIL` on a closed link, or held on the link. -/
def Obligations.SendOutcomes : Prop :=
  ∀ (s : State) (plan : List TxAnswer), idleNow s → s.pace = .merged → lengthOk s →
    (s.conn = true → s.txPlan = .ok :: plan →
      exec .send s = .next { s with txlog := s.txlog ++ (s.hdr ++ s.payload), txPlan := plan, draws := s.draws + 1 }) ∧
    (∀ p, s.conn = true → s.txPlan = .fail p :: plan →
      ∃ q, q < s.len.toNat ∧
        exec .send s = .next (reject .txFail { s with txlog := s.txlog ++ (s.hdr ++ s.payload).take q
                                                      txPlan := plan, draws := s.draws + 1 })) ∧
    (s.conn = false → exec .send s = .next (reject .txFail s)) ∧
    (s.conn = true → s.txPlan = [] → exec .send s = .next { s with state := .sending })

/-- R185, R187, R207 (last row), R58: `SERVE` on a well-formed packet with a matching checksum, a recognised operation and
a valid keyword prepares the transformed packet with a fresh checksum. If the LINK accepts it, it is sent and the link
closed; if the write fails, a proper prefix is sent and `SERVE` ends in `TXFAIL`; while the LINK does not answer, `SERVE`
holds in `SENDING`. -/
def Obligations.ServeAnswersPacket : Prop :=
  ∀ (s : State) (d : Direction) (h : Header) (p rest : Bytes),
    s.state = .idle → s.pace = .merged → s.conn = true →
    h.len.toNat = 16 + p.length → p.length ≤ s.params.maxPayload →
    operation h.op = some d → verdict s.params.hostOrder h p = none →
    s.rxq = headerImage s.params.hostOrder h ++ p ++ rest →
      serveOutcomes d h p rest s (exec .serve s)

/-- `PKT.ENCRYPT` and `PKT.DECRYPT` (R74, R157, R158, R186): fetched by `SERVE` (log 13), with their payload arrived, they
answer the encrypted and the decrypted packet, with the same three outcomes of the send. -/
def Obligations.PacketOperationsServe : Prop :=
  ∀ (s : State) (csum : Half) (key : Keyword) (len : Word64) (p rest : Bytes),
    s.state = .receiving → s.seq = true → s.hdrTaken = false → s.conn = true → s.pace = .merged →
    len.toNat = 16 + p.length → p.length ≤ s.params.maxPayload → s.rxq = p ++ rest →
    (verdict s.params.hostOrder { op := 0#16, csum := csum, key := key, len := len } p = none →
      serveOutcomes .encrypt { op := 0#16, csum := csum, key := key, len := len } p rest s
        (exec (.pktEncrypt csum key len) s)) ∧
    (verdict s.params.hostOrder { op := 1#16, csum := csum, key := key, len := len } p = none →
      serveOutcomes .decrypt { op := 1#16, csum := csum, key := key, len := len } p rest s
        (exec (.pktDecrypt csum key len) s))

/-- The model's own (log 4; that `RECV` and `SERVE` do not clear `VOK` yet: log 8): when the pace is phased, a command in
`IDLE` whose checks pass opens its first phase and does nothing else; these are R190's rows for accepted commands. -/
def Obligations.PhasedCommandOpensItsPhase : Prop :=
  ∀ s : State, idleNow s → s.pace = .phased →
    exec .recv s = .next { s with state := .receiving, hdrTaken := false } ∧
    exec .serve s = .next { s with seq := true, state := .receiving, hdrTaken := false } ∧
    (lengthOk s →
      exec .gen s = .next { s with state := .summing } ∧
      exec .verify s = .next { s with state := .verifying } ∧
      exec .send s = .next { s with state := .sending } ∧
      (keyValid s.key = true →
        exec .enc s = .next { s with state := .encrypting } ∧
        exec .dec s = .next { s with state := .decrypting }))

/-! ### Rejections and holding -/

/-- R206: the rejection entry, the frame it leaves, and that every rejection is taken the same way: a step that brings
the engine into `REJECTED` has recorded a cause, closed the link and ended the sequence. -/
def Obligations.RejectionEntry : Prop :=
  (∀ (c : Cause) (s : State),
    rejectedWith c (reject c s) ∧ (reject c s).busy = false ∧ (reject c s).txlog = s.txlog ∧
    (reject c s).header = s.header ∧ (reject c s).pay = s.pay ∧ (reject c s).sum = s.sum ∧
    (reject c s).kidx = s.kidx ∧ (reject c s).vok = s.vok ∧ (reject c s).pos = s.pos ∧
    (reject c s).rxcsum = s.rxcsum ∧ (reject c s).rxq = s.rxq ∧ (reject c s).txPlan = s.txPlan ∧
    sameSurroundings s (reject c s)) ∧
  (∀ s t : State, s.state ≠ .rejected → step s = .next t → t.state = .rejected →
    ∃ c, c ≠ .none ∧ rejectedWith c t)

/-- R182: `check_len` rejects the five commands that start with it, `BADLEN` first, and changes nothing else; it passes
every other length; the receive phase makes the same two tests on the length it has just received. -/
def Obligations.LengthCheckRejects : Prop :=
  (∀ (s : State) (i : Instr), idleNow s → (i = .gen ∨ i = .verify ∨ i = .enc ∨ i = .dec ∨ i = .send) →
    (s.len.toNat < 16 → exec i s = .next (reject .badLen s)) ∧
    (16 ≤ s.len.toNat → s.params.maxPayload < s.len.toNat - 16 → exec i s = .next (reject .tooBig s))) ∧
  (∀ s : State, checkLen s = none ↔ 16 ≤ s.len.toNat ∧ s.len.toNat - 16 ≤ s.params.maxPayload) ∧
  (∀ (h : Header) (s : State),
    (h.len.toNat < 16 → acceptHeader h s = reject .badLen (loadHeader h { s with vok := false })) ∧
    (16 ≤ h.len.toNat → s.params.maxPayload < h.len.toNat - 16 →
      acceptHeader h s = reject .tooBig (loadHeader h { s with vok := false })) ∧
    (16 ≤ h.len.toNat → h.len.toNat - 16 ≤ s.params.maxPayload →
      acceptHeader h s = { loadHeader h { s with vok := false } with hdrTaken := true }))

/-- R153, R159, R160, R207: `ENC` and `DEC` reject a keyword that is not four lower-case letters, after the length
check, and change nothing else. -/
def Obligations.BadKeyRejects : Prop :=
  ∀ (s : State) (i : Instr), idleNow s → (i = .enc ∨ i = .dec) → lengthOk s →
    ¬(0x61 ≤ s.key.k0.toNat ∧ s.key.k0.toNat ≤ 0x7A ∧ 0x61 ≤ s.key.k1.toNat ∧ s.key.k1.toNat ≤ 0x7A ∧
      0x61 ≤ s.key.k2.toNat ∧ s.key.k2.toNat ≤ 0x7A ∧ 0x61 ≤ s.key.k3.toNat ∧ s.key.k3.toNat ≤ 0x7A) →
      exec i s = .next (reject .badKey s)

/-- R102: what a failed receive leaves behind, by the point of failure, for `RECV` and for `SERVE`. -/
def Obligations.FailedReceiveLeaves : Prop :=
  ∀ (s : State) (i : Instr), (i = .recv ∨ i = .serve) → idleNow s → s.pace = .merged →
    (s.conn = false →
      ∃ t, exec i s = .next t ∧ rejectedWith .rxFail t ∧ t.vok = false ∧ t.header = s.header ∧ t.pay = s.pay ∧
        t.rxq = s.rxq ∧ t.txlog = s.txlog ∧ t.sum = s.sum ∧ t.kidx = s.kidx) ∧
    (s.conn = true → s.rxq.length < 16 → s.rxeof = true →
      ∃ t, exec i s = .next t ∧ rejectedWith .rxFail t ∧ t.vok = false ∧ t.header = s.header ∧ t.pay = s.pay ∧
        (∃ k, k ≤ 15 ∧ t.rxq = s.rxq.drop k) ∧ t.txlog = s.txlog ∧ t.sum = s.sum ∧ t.kidx = s.kidx) ∧
    (∀ h rest, s.conn = true → s.rxq = headerImage s.params.hostOrder h ++ rest →
      (h.len.toNat < 16 →
        ∃ t, exec i s = .next t ∧ rejectedWith .badLen t ∧ t.vok = false ∧ t.header = h ∧ t.pay = s.pay ∧
          t.rxq = rest ∧ t.txlog = s.txlog ∧ t.sum = s.sum ∧ t.kidx = s.kidx) ∧
      (16 ≤ h.len.toNat → s.params.maxPayload < h.len.toNat - 16 →
        ∃ t, exec i s = .next t ∧ rejectedWith .tooBig t ∧ t.vok = false ∧ t.header = h ∧ t.pay = s.pay ∧
          t.rxq = rest ∧ t.txlog = s.txlog ∧ t.sum = s.sum ∧ t.kidx = s.kidx) ∧
      (16 ≤ h.len.toNat → h.len.toNat - 16 ≤ s.params.maxPayload → rest.length < h.len.toNat - 16 →
        s.rxeof = true →
        ∃ t, exec i s = .next t ∧ rejectedWith .rxFail t ∧ t.vok = false ∧ t.header = h ∧
          payloadKeptFrom (h.len.toNat - 16) s.pay t.pay ∧ (∃ k, k < h.len.toNat - 16 ∧ t.rxq = rest.drop k) ∧
          t.txlog = s.txlog ∧ t.sum = s.sum ∧ t.kidx = s.kidx))

/-- R57, R100, R102: each outcome of the two receive steps, however the engine came to stand before them. A close inside
the payload leaves `VOK = 0` wherever the invariant holds. The model's own: `VOK` is cleared with the first of them
(log 8), and the bit `hdrTaken` says which of them comes next (log 18). -/
def Obligations.ReceiveStepOutcomes : Prop :=
  ∀ s : State, s.state = .receiving →
    (s.hdrTaken = false → s.conn = true →
      (16 ≤ s.rxq.length →
        engineStep s = some (acceptHeader (parseHeader s.params.hostOrder (s.rxq.take 16))
          { s with rxq := s.rxq.drop 16 })) ∧
      (s.rxq.length < 16 → s.rxeof = false → engineStep s = none) ∧
      (s.rxq.length < 16 → s.rxeof = true →
        ∃ t, engineStep s = some t ∧ rejectedWith .rxFail t ∧ t.vok = false ∧ t.header = s.header ∧ t.pay = s.pay ∧
          (∃ k, k ≤ 15 ∧ t.rxq = s.rxq.drop k) ∧ t.txlog = s.txlog)) ∧
    (s.hdrTaken = false → s.conn = false → engineStep s = some (reject .rxFail { s with vok := false })) ∧
    (s.hdrTaken = true →
      (s.payloadSize ≤ s.rxq.length →
        ∃ t, engineStep s = some t ∧ t.rxq = s.rxq.drop s.payloadSize ∧
          payloadIs t.pay (s.rxq.take s.payloadSize) ∧ payloadKeptFrom s.payloadSize s.pay t.pay ∧
          t = { s with rxq := t.rxq, pay := t.pay, hdrTaken := false
                       state := if s.seq then .verifying else .idle }) ∧
      (s.rxq.length < s.payloadSize → s.rxeof = false → engineStep s = none) ∧
      (s.rxq.length < s.payloadSize → s.rxeof = true →
        ∃ t, engineStep s = some t ∧ rejectedWith .rxFail t ∧ t.vok = s.vok ∧ (s.Inv → t.vok = false) ∧ t.header = s.header ∧
          payloadKeptFrom s.payloadSize s.pay t.pay ∧ (∃ k, k < s.payloadSize ∧ t.rxq = s.rxq.drop k) ∧
          t.txlog = s.txlog))

/-- R185, R186, R207, R208: the order of `SERVE`'s verdicts on a packet that has arrived whole, and what each leaves. -/
def Obligations.ServeRejectsInOrder : Prop :=
  ∀ (s : State) (h : Header) (p rest : Bytes) (c : Cause),
    s.state = .idle → s.pace = .merged → s.conn = true →
    h.len.toNat = 16 + p.length → p.length ≤ s.params.maxPayload →
    s.rxq = headerImage s.params.hostOrder h ++ p ++ rest → verdict s.params.hostOrder h p = some c →
      ∃ t, exec .serve s = .next t ∧ rejectedWith c t ∧ holdsPacket h p s t ∧
        t.sum = accumulate s.params.hostOrder (checksumImage s.params.hostOrder h p) ∧
        t.vok = decide (c ≠ .badSum) ∧ t.kidx = s.kidx ∧ t.rxq = rest ∧ t.txlog = s.txlog ∧ t.txPlan = s.txPlan ∧
        sameSurroundings s t

/-- R57, R236: a receive whose bytes have not arrived holds, before the header and before the payload; a held engine
changes nothing however often it gets the turn (turns: log 1); and only a step of the LINK enables it again. The model's
own: while the header has not arrived, `VOK` keeps its earlier value (log 8), and `hdrTaken` tells the two holds apart
(log 18). -/
def Obligations.HeldEngineStays : Prop :=
  (∀ s : State, idleNow s → s.pace = .merged → s.conn = true → s.rxeof = false →
    (s.rxq.length < 16 →
      exec .recv s = .next { s with state := .receiving, hdrTaken := false } ∧
      exec .serve s = .next { s with seq := true, state := .receiving, hdrTaken := false }) ∧
    (∀ (i : Instr) (h : Header) (rest : Bytes), (i = .recv ∨ i = .serve) →
      s.rxq = headerImage s.params.hostOrder h ++ rest → 16 ≤ h.len.toNat →
      h.len.toNat - 16 ≤ s.params.maxPayload → rest.length < h.len.toNat - 16 →
      ∃ t, exec i s = .next t ∧ t.state = .receiving ∧ t.hdrTaken = true ∧ t.header = h ∧ t.rxq = rest ∧
        t.pay = s.pay ∧ t.vok = false ∧ t.conn = true ∧ t.txlog = s.txlog ∧ engineStep t = none)) ∧
  (∀ (s : State) (n : Nat), engineStep s = none →
    Host.Core.run Sys2Proof.core n ({ s with agenda := List.replicate n .engine ++ s.agenda } : State) = .next s) ∧
  (∀ (s t : State) (turn : Turn), s.busy = true → engineStep s = none → s.agenda.head? = some turn →
    step s = .next t → engineStep t ≠ none → ∃ e, turn = .link e)

/-! ### The checksum -/

/-- R123: the carry test, the value of `eac64`, and that the increment cannot overflow. -/
def Obligations.EndAroundCarryValue : Prop :=
  ∀ s w : Word64,
    (s + w < w ↔ 2 ^ 64 ≤ s.toNat + w.toNat) ∧
    (eac64 s w).toNat = if 2 ^ 64 ≤ s.toNat + w.toNat then s.toNat + w.toNat - 2 ^ 64 + 1 else s.toNat + w.toNat

/-- R124, R125, R133: each fold is the residue modulo all ones, with all ones standing for 0 unless the value is 0. -/
def Obligations.FoldsKeepResidue : Prop :=
  (∀ s : Word64, (fold32 s).toNat = if s.toNat = 0 then 0 else (s.toNat - 1) % (2 ^ 32 - 1) + 1) ∧
  (∀ s : Word32, (fold16 s).toNat = if s.toNat = 0 then 0 else (s.toNat - 1) % (2 ^ 16 - 1) + 1)

/-- R132: the accumulator's value from the plain sum of the words, whose order does not matter. -/
def Obligations.AccumulatorIsResidue : Prop :=
  (∀ (o : ByteOrder) (m : Bytes),
    let total := ((imageWords o m).map BitVec.toNat).sum
    (accumulate o m).toNat = if total = 0 then 0 else (total - 1) % (2 ^ 64 - 1) + 1) ∧
  (∀ ws ws' : List Word64, ws.Perm ws' → ws.foldl eac64 0#64 = ws'.foldl eac64 0#64)

/-- R127: the words cover the image: pieces of 8, 8, then 8 as long as they last, then at most one of 4, of 2 and of 1,
in order. -/
def Obligations.PiecesCoverImage : Prop :=
  ∀ m : Bytes, 16 ≤ m.length →
    (imagePieces m).flatten = m ∧
    ∃ k r, (imagePieces m).map List.length = List.replicate k 8 ++ r ∧ r.Sublist [4, 2, 1]

/-- R133: the checksum from the plain sum of the words; a packet's checksum is never 0xFFFF. -/
def Obligations.ChecksumIsComplementedResidue : Prop :=
  (∀ (o : ByteOrder) (m : Bytes),
    let total := ((imageWords o m).map BitVec.toNat).sum
    0 < total → (cksum o m).toNat = 0xFFFF - ((total - 1) % 65535 + 1)) ∧
  (∀ (o : ByteOrder) (h : Header) (p : Bytes), 16 ≤ h.len.toNat → cksum o (checksumImage o h p) ≠ 0xFFFF#16)

/-- R134: for an image of even length the two checksum bytes on the wire do not depend on `HOST_ORDER`. -/
def Obligations.EvenLengthIgnoresHostOrder : Prop :=
  ∀ m : Bytes, 16 ≤ m.length → m.length % 2 = 0 →
    orderedBytes .be 2 (cksum .be m).toNat = orderedBytes .le 2 (cksum .le m).toNat

/-- R135: summing a valid packet with its own checksum in place gives 0, so a verifier that does not zero the field
refuses every valid packet whose checksum is not 0. -/
def Obligations.UnzeroedFieldSumsToZero : Prop :=
  ∀ (o : ByteOrder) (h : Header) (p : Bytes), 16 ≤ h.len.toNat → h.csum = cksum o (checksumImage o h p) →
    cksum o (headerImage o h ++ p) = 0#16

/-- R136: changing any one byte of an image of fixed length changes its checksum. -/
def Obligations.ByteChangeChangesChecksum : Prop :=
  ∀ (o : ByteOrder) (m : Bytes) (i : Nat) (b : Byte), 16 ≤ m.length → i < m.length → m[i]? ≠ some b →
    cksum o (m.set i b) ≠ cksum o m

/-- R136: a host write that changes one written payload byte of a valid packet makes `VERIFY` answer `VOK = 0`. -/
def Obligations.CorruptedPayloadIsDetected : Prop :=
  ∀ (s : State) (a : Nat) (b c : Byte),
    idleNow s → s.pace = .merged → lengthOk s → payloadWritten s →
    s.csum = cksum s.params.hostOrder (checksumImage s.params.hostOrder s.header s.payload) →
    a < s.payloadSize → s.pay.read a = some c → c ≠ b →
      ∃ t u, hostAccess (.payWrite a b) s = .next t ∧ exec .verify t = .next u ∧ u.vok = false

/-! ### The cipher -/

/-- R154: `enc_byte` shifts a letter forward by the keyword letter's rank, modulo 26, and leaves other bytes. -/
def Obligations.EncryptByteValue : Prop :=
  ∀ c k : Byte, isLower k = true →
    (isLetter c = true → encByte c k = (BitVec.ofNat 8 (0x61 + (rank (lower c) + rank k) % 26), true)) ∧
    (isLetter c = false → encByte c k = (c, false))

/-- R155: `dec_byte` shifts a letter back by the keyword letter's rank, modulo 26, and leaves other bytes. -/
def Obligations.DecryptByteValue : Prop :=
  ∀ c k : Byte, isLower k = true →
    (isLetter c = true → decByte c k = (BitVec.ofNat 8 (0x61 + (rank (lower c) + 26 - rank k) % 26), true)) ∧
    (isLetter c = false → decByte c k = (c, false))

/-- R157: `encrypt` is what the transform phase leaves in `PAY`, and its closed form; the keyword position counts the
letters before a byte. -/
def Obligations.EncryptClosedForm : Prop :=
  (∀ s : State, payloadIs (phaseXform .encrypt s).pay (encrypt s.payload s.key)) ∧
  ∀ (p : Bytes) (key : Keyword), keyValid key = true →
    (encrypt p key).length = p.length ∧
    ∀ i c, p[i]? = some c →
      (encrypt p key)[i]? =
        some (if isLetter c then
          BitVec.ofNat 8 (0x61 + (rank (lower c) + rank (keyAt key (BitVec.ofNat 2 (letterCount (p.take i))))) % 26)
          else c)

/-- R158: `decrypt` is what the transform phase leaves in `PAY`, and its closed form. -/
def Obligations.DecryptClosedForm : Prop :=
  (∀ s : State, payloadIs (phaseXform .decrypt s).pay (decrypt s.payload s.key)) ∧
  ∀ (p : Bytes) (key : Keyword), keyValid key = true →
    (decrypt p key).length = p.length ∧
    ∀ i c, p[i]? = some c →
      (decrypt p key)[i]? =
        some (if isLetter c then
          BitVec.ofNat 8 (0x61 + (rank (lower c) + 26 - rank (keyAt key (BitVec.ofNat 2 (letterCount (p.take i))))) % 26)
          else c)

/-- R161: decrypting an encrypted payload gives it back in lower case, and so does the other order. -/
def Obligations.CipherRoundTrip : Prop :=
  ∀ (p : Bytes) (key : Keyword), keyValid key = true →
    decrypt (encrypt p key) key = p.map lower ∧ encrypt (decrypt p key) key = p.map lower

/-- R162: length, letter positions, lower case, unchanged non-letters; the keyword "aaaa" only lower-cases; and an
upper-case letter never comes out as it went in. -/
def Obligations.CipherShape : Prop :=
  ∀ (d : Direction) (p : Bytes) (key : Keyword), keyValid key = true →
    (transformPayload d p key).length = p.length ∧
    (∀ (i : Nat) (c c' : Byte), p[i]? = some c → (transformPayload d p key)[i]? = some c' →
      isLetter c' = isLetter c ∧ (isLetter c' = true → isLower c' = true) ∧ (isLetter c = false → c' = c) ∧
      (isUpper c = true → c' ≠ c)) ∧
    transformPayload d p { k0 := 0x61#8, k1 := 0x61#8, k2 := 0x61#8, k3 := 0x61#8 } = p.map lower

/-! ### The codec -/

/-- R107: `RECV` followed by `SEND` with no write in between sends exactly the bytes that were received. -/
def Obligations.ReceiveThenSendIsByteExact : Prop :=
  ∀ (s : State) (w rest : Bytes) (plan : List TxAnswer),
    idleNow s → s.pace = .merged → s.conn = true → 16 ≤ w.length → w.length - 16 ≤ s.params.maxPayload →
    beNat (slice w 8 8) = w.length → s.rxq = w ++ rest → s.txPlan = .ok :: plan →
      ∃ t u, exec .recv s = .next t ∧ exec .send t = .next u ∧ u.txlog = s.txlog ++ w ∧ u.rxq = rest ∧
        u.state = .idle ∧ u.conn = true
end

