-- ==== Sys2Proof/Laws/State.lean ====
section
/-! SUPPORT. For every named update of the state, what each field is after it: one lemma per field, true by rfl, so that
no proof unfolds a record update. -/

namespace Sys2Proof.Machine

/-! ### `draw` -/

@[simp] theorem draw_op (s : State) : (draw s).op = s.op := rfl
@[simp] theorem draw_csum (s : State) : (draw s).csum = s.csum := rfl
@[simp] theorem draw_key (s : State) : (draw s).key = s.key := rfl
@[simp] theorem draw_len (s : State) : (draw s).len = s.len := rfl
@[simp] theorem draw_pay (s : State) : (draw s).pay = s.pay := rfl
@[simp] theorem draw_sum (s : State) : (draw s).sum = s.sum := rfl
@[simp] theorem draw_kidx (s : State) : (draw s).kidx = s.kidx := rfl
@[simp] theorem draw_state (s : State) : (draw s).state = s.state := rfl
@[simp] theorem draw_seq (s : State) : (draw s).seq = s.seq := rfl
@[simp] theorem draw_vok (s : State) : (draw s).vok = s.vok := rfl
@[simp] theorem draw_herr (s : State) : (draw s).herr = s.herr := rfl
@[simp] theorem draw_err (s : State) : (draw s).err = s.err := rfl
@[simp] theorem draw_conn (s : State) : (draw s).conn = s.conn := rfl
@[simp] theorem draw_pos (s : State) : (draw s).pos = s.pos := rfl
@[simp] theorem draw_rxcsum (s : State) : (draw s).rxcsum = s.rxcsum := rfl
@[simp] theorem draw_rxq (s : State) : (draw s).rxq = s.rxq := rfl
@[simp] theorem draw_rxeof (s : State) : (draw s).rxeof = s.rxeof := rfl
@[simp] theorem draw_txlog (s : State) : (draw s).txlog = s.txlog := rfl
@[simp] theorem draw_hdrTaken (s : State) : (draw s).hdrTaken = s.hdrTaken := rfl
@[simp] theorem draw_txPlan (s : State) : (draw s).txPlan = s.txPlan := rfl
@[simp] theorem draw_params (s : State) : (draw s).params = s.params := rfl
@[simp] theorem draw_agenda (s : State) : (draw s).agenda = s.agenda := rfl
@[simp] theorem draw_pace (s : State) : (draw s).pace = s.pace := rfl
@[simp] theorem draw_reads (s : State) : (draw s).reads = s.reads := rfl
@[simp] theorem draw_draws (s : State) : (draw s).draws = s.draws + 1 := rfl

/-! ### `reject` -/

@[simp] theorem reject_op (c : Cause) (s : State) : (reject c s).op = s.op := rfl
@[simp] theorem reject_csum (c : Cause) (s : State) : (reject c s).csum = s.csum := rfl
@[simp] theorem reject_key (c : Cause) (s : State) : (reject c s).key = s.key := rfl
@[simp] theorem reject_len (c : Cause) (s : State) : (reject c s).len = s.len := rfl
@[simp] theorem reject_pay (c : Cause) (s : State) : (reject c s).pay = s.pay := rfl
@[simp] theorem reject_sum (c : Cause) (s : State) : (reject c s).sum = s.sum := rfl
@[simp] theorem reject_kidx (c : Cause) (s : State) : (reject c s).kidx = s.kidx := rfl
@[simp] theorem reject_state (c : Cause) (s : State) : (reject c s).state = .rejected := rfl
@[simp] theorem reject_seq (c : Cause) (s : State) : (reject c s).seq = false := rfl
@[simp] theorem reject_vok (c : Cause) (s : State) : (reject c s).vok = s.vok := rfl
@[simp] theorem reject_herr (c : Cause) (s : State) : (reject c s).herr = s.herr := rfl
@[simp] theorem reject_err (c : Cause) (s : State) : (reject c s).err = c := rfl
@[simp] theorem reject_conn (c : Cause) (s : State) : (reject c s).conn = false := rfl
@[simp] theorem reject_pos (c : Cause) (s : State) : (reject c s).pos = s.pos := rfl
@[simp] theorem reject_rxcsum (c : Cause) (s : State) : (reject c s).rxcsum = s.rxcsum := rfl
@[simp] theorem reject_rxq (c : Cause) (s : State) : (reject c s).rxq = s.rxq := rfl
@[simp] theorem reject_rxeof (c : Cause) (s : State) : (reject c s).rxeof = s.rxeof := rfl
@[simp] theorem reject_txlog (c : Cause) (s : State) : (reject c s).txlog = s.txlog := rfl
@[simp] theorem reject_hdrTaken (c : Cause) (s : State) : (reject c s).hdrTaken = false := rfl
@[simp] theorem reject_txPlan (c : Cause) (s : State) : (reject c s).txPlan = s.txPlan := rfl
@[simp] theorem reject_params (c : Cause) (s : State) : (reject c s).params = s.params := rfl
@[simp] theorem reject_agenda (c : Cause) (s : State) : (reject c s).agenda = s.agenda := rfl
@[simp] theorem reject_pace (c : Cause) (s : State) : (reject c s).pace = s.pace := rfl
@[simp] theorem reject_reads (c : Cause) (s : State) : (reject c s).reads = s.reads := rfl
@[simp] theorem reject_draws (c : Cause) (s : State) : (reject c s).draws = s.draws := rfl

/-! ### `clearPacket` -/

@[simp] theorem clearPacket_op (s : State) : (clearPacket s).op = 0#16 := rfl
@[simp] theorem clearPacket_csum (s : State) : (clearPacket s).csum = 0#16 := rfl
@[simp] theorem clearPacket_key (s : State) : (clearPacket s).key = { k0 := 0#8, k1 := 0#8, k2 := 0#8, k3 := 0#8 } := rfl
@[simp] theorem clearPacket_len (s : State) : (clearPacket s).len = 16#64 := rfl
@[simp] theorem clearPacket_pay (s : State) : (clearPacket s).pay = s.pay := rfl
@[simp] theorem clearPacket_sum (s : State) : (clearPacket s).sum = 0#64 := rfl
@[simp] theorem clearPacket_kidx (s : State) : (clearPacket s).kidx = 0#2 := rfl
@[simp] theorem clearPacket_state (s : State) : (clearPacket s).state = .idle := rfl
@[simp] theorem clearPacket_seq (s : State) : (clearPacket s).seq = false := rfl
@[simp] theorem clearPacket_vok (s : State) : (clearPacket s).vok = false := rfl
@[simp] theorem clearPacket_herr (s : State) : (clearPacket s).herr = false := rfl
@[simp] theorem clearPacket_err (s : State) : (clearPacket s).err = .none := rfl
@[simp] theorem clearPacket_conn (s : State) : (clearPacket s).conn = s.conn := rfl
@[simp] theorem clearPacket_pos (s : State) : (clearPacket s).pos = Config.clearedPos s.draws := rfl
@[simp] theorem clearPacket_rxcsum (s : State) : (clearPacket s).rxcsum = Config.clearedRxcsum s.draws := rfl
@[simp] theorem clearPacket_rxq (s : State) : (clearPacket s).rxq = s.rxq := rfl
@[simp] theorem clearPacket_rxeof (s : State) : (clearPacket s).rxeof = s.rxeof := rfl
@[simp] theorem clearPacket_txlog (s : State) : (clearPacket s).txlog = s.txlog := rfl
@[simp] theorem clearPacket_hdrTaken (s : State) : (clearPacket s).hdrTaken = false := rfl
@[simp] theorem clearPacket_txPlan (s : State) : (clearPacket s).txPlan = s.txPlan := rfl
@[simp] theorem clearPacket_params (s : State) : (clearPacket s).params = s.params := rfl
@[simp] theorem clearPacket_agenda (s : State) : (clearPacket s).agenda = s.agenda := rfl
@[simp] theorem clearPacket_pace (s : State) : (clearPacket s).pace = s.pace := rfl
@[simp] theorem clearPacket_reads (s : State) : (clearPacket s).reads = s.reads := rfl
@[simp] theorem clearPacket_draws (s : State) : (clearPacket s).draws = s.draws + 1 := rfl

/-! ### `closeLink` -/

@[simp] theorem closeLink_op (s : State) : (closeLink s).op = s.op := rfl
@[simp] theorem closeLink_csum (s : State) : (closeLink s).csum = s.csum := rfl
@[simp] theorem closeLink_key (s : State) : (closeLink s).key = s.key := rfl
@[simp] theorem closeLink_len (s : State) : (closeLink s).len = s.len := rfl
@[simp] theorem closeLink_pay (s : State) : (closeLink s).pay = s.pay := rfl
@[simp] theorem closeLink_sum (s : State) : (closeLink s).sum = s.sum := rfl
@[simp] theorem closeLink_kidx (s : State) : (closeLink s).kidx = s.kidx := rfl
@[simp] theorem closeLink_state (s : State) : (closeLink s).state = s.state := rfl
@[simp] theorem closeLink_seq (s : State) : (closeLink s).seq = s.seq := rfl
@[simp] theorem closeLink_vok (s : State) : (closeLink s).vok = s.vok := rfl
@[simp] theorem closeLink_herr (s : State) : (closeLink s).herr = s.herr := rfl
@[simp] theorem closeLink_err (s : State) : (closeLink s).err = s.err := rfl
@[simp] theorem closeLink_conn (s : State) : (closeLink s).conn = false := rfl
@[simp] theorem closeLink_pos (s : State) : (closeLink s).pos = s.pos := rfl
@[simp] theorem closeLink_rxcsum (s : State) : (closeLink s).rxcsum = s.rxcsum := rfl
@[simp] theorem closeLink_rxq (s : State) : (closeLink s).rxq = s.rxq := rfl
@[simp] theorem closeLink_rxeof (s : State) : (closeLink s).rxeof = s.rxeof := rfl
@[simp] theorem closeLink_txlog (s : State) : (closeLink s).txlog = s.txlog := rfl
@[simp] theorem closeLink_hdrTaken (s : State) : (closeLink s).hdrTaken = s.hdrTaken := rfl
@[simp] theorem closeLink_txPlan (s : State) : (closeLink s).txPlan = s.txPlan := rfl
@[simp] theorem closeLink_params (s : State) : (closeLink s).params = s.params := rfl
@[simp] theorem closeLink_agenda (s : State) : (closeLink s).agenda = s.agenda := rfl
@[simp] theorem closeLink_pace (s : State) : (closeLink s).pace = s.pace := rfl
@[simp] theorem closeLink_reads (s : State) : (closeLink s).reads = s.reads := rfl
@[simp] theorem closeLink_draws (s : State) : (closeLink s).draws = s.draws := rfl

/-! ### `hostError` -/

@[simp] theorem hostError_op (s : State) : (hostError s).op = s.op := rfl
@[simp] theorem hostError_csum (s : State) : (hostError s).csum = s.csum := rfl
@[simp] theorem hostError_key (s : State) : (hostError s).key = s.key := rfl
@[simp] theorem hostError_len (s : State) : (hostError s).len = s.len := rfl
@[simp] theorem hostError_pay (s : State) : (hostError s).pay = s.pay := rfl
@[simp] theorem hostError_sum (s : State) : (hostError s).sum = s.sum := rfl
@[simp] theorem hostError_kidx (s : State) : (hostError s).kidx = s.kidx := rfl
@[simp] theorem hostError_state (s : State) : (hostError s).state = s.state := rfl
@[simp] theorem hostError_seq (s : State) : (hostError s).seq = s.seq := rfl
@[simp] theorem hostError_vok (s : State) : (hostError s).vok = s.vok := rfl
@[simp] theorem hostError_herr (s : State) : (hostError s).herr = true := rfl
@[simp] theorem hostError_err (s : State) : (hostError s).err = s.err := rfl
@[simp] theorem hostError_conn (s : State) : (hostError s).conn = s.conn := rfl
@[simp] theorem hostError_pos (s : State) : (hostError s).pos = s.pos := rfl
@[simp] theorem hostError_rxcsum (s : State) : (hostError s).rxcsum = s.rxcsum := rfl
@[simp] theorem hostError_rxq (s : State) : (hostError s).rxq = s.rxq := rfl
@[simp] theorem hostError_rxeof (s : State) : (hostError s).rxeof = s.rxeof := rfl
@[simp] theorem hostError_txlog (s : State) : (hostError s).txlog = s.txlog := rfl
@[simp] theorem hostError_hdrTaken (s : State) : (hostError s).hdrTaken = s.hdrTaken := rfl
@[simp] theorem hostError_txPlan (s : State) : (hostError s).txPlan = s.txPlan := rfl
@[simp] theorem hostError_params (s : State) : (hostError s).params = s.params := rfl
@[simp] theorem hostError_agenda (s : State) : (hostError s).agenda = s.agenda := rfl
@[simp] theorem hostError_pace (s : State) : (hostError s).pace = s.pace := rfl
@[simp] theorem hostError_reads (s : State) : (hostError s).reads = s.reads := rfl
@[simp] theorem hostError_draws (s : State) : (hostError s).draws = s.draws := rfl

/-! ### `reply` -/

@[simp] theorem reply_op (v : Reply) (s : State) : (reply v s).op = s.op := rfl
@[simp] theorem reply_csum (v : Reply) (s : State) : (reply v s).csum = s.csum := rfl
@[simp] theorem reply_key (v : Reply) (s : State) : (reply v s).key = s.key := rfl
@[simp] theorem reply_len (v : Reply) (s : State) : (reply v s).len = s.len := rfl
@[simp] theorem reply_pay (v : Reply) (s : State) : (reply v s).pay = s.pay := rfl
@[simp] theorem reply_sum (v : Reply) (s : State) : (reply v s).sum = s.sum := rfl
@[simp] theorem reply_kidx (v : Reply) (s : State) : (reply v s).kidx = s.kidx := rfl
@[simp] theorem reply_state (v : Reply) (s : State) : (reply v s).state = s.state := rfl
@[simp] theorem reply_seq (v : Reply) (s : State) : (reply v s).seq = s.seq := rfl
@[simp] theorem reply_vok (v : Reply) (s : State) : (reply v s).vok = s.vok := rfl
@[simp] theorem reply_herr (v : Reply) (s : State) : (reply v s).herr = s.herr := rfl
@[simp] theorem reply_err (v : Reply) (s : State) : (reply v s).err = s.err := rfl
@[simp] theorem reply_conn (v : Reply) (s : State) : (reply v s).conn = s.conn := rfl
@[simp] theorem reply_pos (v : Reply) (s : State) : (reply v s).pos = s.pos := rfl
@[simp] theorem reply_rxcsum (v : Reply) (s : State) : (reply v s).rxcsum = s.rxcsum := rfl
@[simp] theorem reply_rxq (v : Reply) (s : State) : (reply v s).rxq = s.rxq := rfl
@[simp] theorem reply_rxeof (v : Reply) (s : State) : (reply v s).rxeof = s.rxeof := rfl
@[simp] theorem reply_txlog (v : Reply) (s : State) : (reply v s).txlog = s.txlog := rfl
@[simp] theorem reply_hdrTaken (v : Reply) (s : State) : (reply v s).hdrTaken = s.hdrTaken := rfl
@[simp] theorem reply_txPlan (v : Reply) (s : State) : (reply v s).txPlan = s.txPlan := rfl
@[simp] theorem reply_params (v : Reply) (s : State) : (reply v s).params = s.params := rfl
@[simp] theorem reply_agenda (v : Reply) (s : State) : (reply v s).agenda = s.agenda := rfl
@[simp] theorem reply_pace (v : Reply) (s : State) : (reply v s).pace = s.pace := rfl
@[simp] theorem reply_reads (v : Reply) (s : State) : (reply v s).reads = s.reads ++ [v] := rfl
@[simp] theorem reply_draws (v : Reply) (s : State) : (reply v s).draws = s.draws := rfl

/-! ### `refuseRead` -/

@[simp] theorem refuseRead_op (f : Word64 → Reply) (s : State) : (refuseRead f s).op = s.op := rfl
@[simp] theorem refuseRead_csum (f : Word64 → Reply) (s : State) : (refuseRead f s).csum = s.csum := rfl
@[simp] theorem refuseRead_key (f : Word64 → Reply) (s : State) : (refuseRead f s).key = s.key := rfl
@[simp] theorem refuseRead_len (f : Word64 → Reply) (s : State) : (refuseRead f s).len = s.len := rfl
@[simp] theorem refuseRead_pay (f : Word64 → Reply) (s : State) : (refuseRead f s).pay = s.pay := rfl
@[simp] theorem refuseRead_sum (f : Word64 → Reply) (s : State) : (refuseRead f s).sum = s.sum := rfl
@[simp] theorem refuseRead_kidx (f : Word64 → Reply) (s : State) : (refuseRead f s).kidx = s.kidx := rfl
@[simp] theorem refuseRead_state (f : Word64 → Reply) (s : State) : (refuseRead f s).state = s.state := rfl
@[simp] theorem refuseRead_seq (f : Word64 → Reply) (s : State) : (refuseRead f s).seq = s.seq := rfl
@[simp] theorem refuseRead_vok (f : Word64 → Reply) (s : State) : (refuseRead f s).vok = s.vok := rfl
@[simp] theorem refuseRead_herr (f : Word64 → Reply) (s : State) : (refuseRead f s).herr = true := rfl
@[simp] theorem refuseRead_err (f : Word64 → Reply) (s : State) : (refuseRead f s).err = s.err := rfl
@[simp] theorem refuseRead_conn (f : Word64 → Reply) (s : State) : (refuseRead f s).conn = s.conn := rfl
@[simp] theorem refuseRead_pos (f : Word64 → Reply) (s : State) : (refuseRead f s).pos = s.pos := rfl
@[simp] theorem refuseRead_rxcsum (f : Word64 → Reply) (s : State) : (refuseRead f s).rxcsum = s.rxcsum := rfl
@[simp] theorem refuseRead_rxq (f : Word64 → Reply) (s : State) : (refuseRead f s).rxq = s.rxq := rfl
@[simp] theorem refuseRead_rxeof (f : Word64 → Reply) (s : State) : (refuseRead f s).rxeof = s.rxeof := rfl
@[simp] theorem refuseRead_txlog (f : Word64 → Reply) (s : State) : (refuseRead f s).txlog = s.txlog := rfl
@[simp] theorem refuseRead_hdrTaken (f : Word64 → Reply) (s : State) : (refuseRead f s).hdrTaken = s.hdrTaken := rfl
@[simp] theorem refuseRead_txPlan (f : Word64 → Reply) (s : State) : (refuseRead f s).txPlan = s.txPlan := rfl
@[simp] theorem refuseRead_params (f : Word64 → Reply) (s : State) : (refuseRead f s).params = s.params := rfl
@[simp] theorem refuseRead_agenda (f : Word64 → Reply) (s : State) : (refuseRead f s).agenda = s.agenda := rfl
@[simp] theorem refuseRead_pace (f : Word64 → Reply) (s : State) : (refuseRead f s).pace = s.pace := rfl
@[simp] theorem refuseRead_reads (f : Word64 → Reply) (s : State) : (refuseRead f s).reads = s.reads ++ [f (Config.refusedRead s.draws)] := rfl
@[simp] theorem refuseRead_draws (f : Word64 → Reply) (s : State) : (refuseRead f s).draws = s.draws + 1 := rfl

/-! ### `loadHeader` -/

@[simp] theorem loadHeader_op (h : Header) (s : State) : (loadHeader h s).op = h.op := rfl
@[simp] theorem loadHeader_csum (h : Header) (s : State) : (loadHeader h s).csum = h.csum := rfl
@[simp] theorem loadHeader_key (h : Header) (s : State) : (loadHeader h s).key = h.key := rfl
@[simp] theorem loadHeader_len (h : Header) (s : State) : (loadHeader h s).len = h.len := rfl
@[simp] theorem loadHeader_pay (h : Header) (s : State) : (loadHeader h s).pay = s.pay := rfl
@[simp] theorem loadHeader_sum (h : Header) (s : State) : (loadHeader h s).sum = s.sum := rfl
@[simp] theorem loadHeader_kidx (h : Header) (s : State) : (loadHeader h s).kidx = s.kidx := rfl
@[simp] theorem loadHeader_state (h : Header) (s : State) : (loadHeader h s).state = s.state := rfl
@[simp] theorem loadHeader_seq (h : Header) (s : State) : (loadHeader h s).seq = s.seq := rfl
@[simp] theorem loadHeader_vok (h : Header) (s : State) : (loadHeader h s).vok = s.vok := rfl
@[simp] theorem loadHeader_herr (h : Header) (s : State) : (loadHeader h s).herr = s.herr := rfl
@[simp] theorem loadHeader_err (h : Header) (s : State) : (loadHeader h s).err = s.err := rfl
@[simp] theorem loadHeader_conn (h : Header) (s : State) : (loadHeader h s).conn = s.conn := rfl
@[simp] theorem loadHeader_pos (h : Header) (s : State) : (loadHeader h s).pos = s.pos := rfl
@[simp] theorem loadHeader_rxcsum (h : Header) (s : State) : (loadHeader h s).rxcsum = s.rxcsum := rfl
@[simp] theorem loadHeader_rxq (h : Header) (s : State) : (loadHeader h s).rxq = s.rxq := rfl
@[simp] theorem loadHeader_rxeof (h : Header) (s : State) : (loadHeader h s).rxeof = s.rxeof := rfl
@[simp] theorem loadHeader_txlog (h : Header) (s : State) : (loadHeader h s).txlog = s.txlog := rfl
@[simp] theorem loadHeader_hdrTaken (h : Header) (s : State) : (loadHeader h s).hdrTaken = s.hdrTaken := rfl
@[simp] theorem loadHeader_txPlan (h : Header) (s : State) : (loadHeader h s).txPlan = s.txPlan := rfl
@[simp] theorem loadHeader_params (h : Header) (s : State) : (loadHeader h s).params = s.params := rfl
@[simp] theorem loadHeader_agenda (h : Header) (s : State) : (loadHeader h s).agenda = s.agenda := rfl
@[simp] theorem loadHeader_pace (h : Header) (s : State) : (loadHeader h s).pace = s.pace := rfl
@[simp] theorem loadHeader_reads (h : Header) (s : State) : (loadHeader h s).reads = s.reads := rfl
@[simp] theorem loadHeader_draws (h : Header) (s : State) : (loadHeader h s).draws = s.draws := rfl

/-! ### `openReceive` -/

@[simp] theorem openReceive_op (s : State) : (openReceive s).op = s.op := rfl
@[simp] theorem openReceive_csum (s : State) : (openReceive s).csum = s.csum := rfl
@[simp] theorem openReceive_key (s : State) : (openReceive s).key = s.key := rfl
@[simp] theorem openReceive_len (s : State) : (openReceive s).len = s.len := rfl
@[simp] theorem openReceive_pay (s : State) : (openReceive s).pay = s.pay := rfl
@[simp] theorem openReceive_sum (s : State) : (openReceive s).sum = s.sum := rfl
@[simp] theorem openReceive_kidx (s : State) : (openReceive s).kidx = s.kidx := rfl
@[simp] theorem openReceive_state (s : State) : (openReceive s).state = .receiving := rfl
@[simp] theorem openReceive_seq (s : State) : (openReceive s).seq = s.seq := rfl
@[simp] theorem openReceive_vok (s : State) : (openReceive s).vok = s.vok := rfl
@[simp] theorem openReceive_herr (s : State) : (openReceive s).herr = s.herr := rfl
@[simp] theorem openReceive_err (s : State) : (openReceive s).err = s.err := rfl
@[simp] theorem openReceive_conn (s : State) : (openReceive s).conn = s.conn := rfl
@[simp] theorem openReceive_pos (s : State) : (openReceive s).pos = s.pos := rfl
@[simp] theorem openReceive_rxcsum (s : State) : (openReceive s).rxcsum = s.rxcsum := rfl
@[simp] theorem openReceive_rxq (s : State) : (openReceive s).rxq = s.rxq := rfl
@[simp] theorem openReceive_rxeof (s : State) : (openReceive s).rxeof = s.rxeof := rfl
@[simp] theorem openReceive_txlog (s : State) : (openReceive s).txlog = s.txlog := rfl
@[simp] theorem openReceive_hdrTaken (s : State) : (openReceive s).hdrTaken = false := rfl
@[simp] theorem openReceive_txPlan (s : State) : (openReceive s).txPlan = s.txPlan := rfl
@[simp] theorem openReceive_params (s : State) : (openReceive s).params = s.params := rfl
@[simp] theorem openReceive_agenda (s : State) : (openReceive s).agenda = s.agenda := rfl
@[simp] theorem openReceive_pace (s : State) : (openReceive s).pace = s.pace := rfl
@[simp] theorem openReceive_reads (s : State) : (openReceive s).reads = s.reads := rfl
@[simp] theorem openReceive_draws (s : State) : (openReceive s).draws = s.draws := rfl

/-! ### `accumulatePacket` -/

@[simp] theorem accumulatePacket_op (s : State) : (accumulatePacket s).op = s.op := by dsimp only [accumulatePacket, draw]
@[simp] theorem accumulatePacket_csum (s : State) : (accumulatePacket s).csum = s.csum := by dsimp only [accumulatePacket, draw]
@[simp] theorem accumulatePacket_key (s : State) : (accumulatePacket s).key = s.key := by dsimp only [accumulatePacket, draw]
@[simp] theorem accumulatePacket_len (s : State) : (accumulatePacket s).len = s.len := by dsimp only [accumulatePacket, draw]
@[simp] theorem accumulatePacket_pay (s : State) : (accumulatePacket s).pay = s.pay := by dsimp only [accumulatePacket, draw]
@[simp] theorem accumulatePacket_sum (s : State) : (accumulatePacket s).sum = accumulate s.params.hostOrder s.summedImage := by dsimp only [accumulatePacket, draw]
@[simp] theorem accumulatePacket_kidx (s : State) : (accumulatePacket s).kidx = s.kidx := by dsimp only [accumulatePacket, draw]
@[simp] theorem accumulatePacket_state (s : State) : (accumulatePacket s).state = s.state := by dsimp only [accumulatePacket, draw]
@[simp] theorem accumulatePacket_seq (s : State) : (accumulatePacket s).seq = s.seq := by dsimp only [accumulatePacket, draw]
@[simp] theorem accumulatePacket_vok (s : State) : (accumulatePacket s).vok = s.vok := by dsimp only [accumulatePacket, draw]
@[simp] theorem accumulatePacket_herr (s : State) : (accumulatePacket s).herr = s.herr := by dsimp only [accumulatePacket, draw]
@[simp] theorem accumulatePacket_err (s : State) : (accumulatePacket s).err = s.err := by dsimp only [accumulatePacket, draw]
@[simp] theorem accumulatePacket_conn (s : State) : (accumulatePacket s).conn = s.conn := by dsimp only [accumulatePacket, draw]
@[simp] theorem accumulatePacket_pos (s : State) : (accumulatePacket s).pos = BitVec.ofNat 64 s.summedImage.length := by dsimp only [accumulatePacket, draw]
@[simp] theorem accumulatePacket_rxcsum (s : State) : (accumulatePacket s).rxcsum = s.rxcsum := by dsimp only [accumulatePacket, draw]
@[simp] theorem accumulatePacket_rxq (s : State) : (accumulatePacket s).rxq = s.rxq := by dsimp only [accumulatePacket, draw]
@[simp] theorem accumulatePacket_rxeof (s : State) : (accumulatePacket s).rxeof = s.rxeof := by dsimp only [accumulatePacket, draw]
@[simp] theorem accumulatePacket_txlog (s : State) : (accumulatePacket s).txlog = s.txlog := by dsimp only [accumulatePacket, draw]
@[simp] theorem accumulatePacket_hdrTaken (s : State) : (accumulatePacket s).hdrTaken = s.hdrTaken := by dsimp only [accumulatePacket, draw]
@[simp] theorem accumulatePacket_txPlan (s : State) : (accumulatePacket s).txPlan = s.txPlan := by dsimp only [accumulatePacket, draw]
@[simp] theorem accumulatePacket_params (s : State) : (accumulatePacket s).params = s.params := by dsimp only [accumulatePacket, draw]
@[simp] theorem accumulatePacket_agenda (s : State) : (accumulatePacket s).agenda = s.agenda := by dsimp only [accumulatePacket, draw]
@[simp] theorem accumulatePacket_pace (s : State) : (accumulatePacket s).pace = s.pace := by dsimp only [accumulatePacket, draw]
@[simp] theorem accumulatePacket_reads (s : State) : (accumulatePacket s).reads = s.reads := by dsimp only [accumulatePacket, draw]
@[simp] theorem accumulatePacket_draws (s : State) : (accumulatePacket s).draws = s.draws + 1 := by dsimp only [accumulatePacket, draw]

/-! ### `phaseSum` -/

@[simp] theorem phaseSum_op (s : State) : (phaseSum s).op = s.op := by dsimp only [phaseSum, accumulatePacket, draw]
@[simp] theorem phaseSum_csum (s : State) : (phaseSum s).csum = cksum s.params.hostOrder s.summedImage := by dsimp only [phaseSum, accumulatePacket, draw]; rfl
@[simp] theorem phaseSum_key (s : State) : (phaseSum s).key = s.key := by dsimp only [phaseSum, accumulatePacket, draw]
@[simp] theorem phaseSum_len (s : State) : (phaseSum s).len = s.len := by dsimp only [phaseSum, accumulatePacket, draw]
@[simp] theorem phaseSum_pay (s : State) : (phaseSum s).pay = s.pay := by dsimp only [phaseSum, accumulatePacket, draw]
@[simp] theorem phaseSum_sum (s : State) : (phaseSum s).sum = accumulate s.params.hostOrder s.summedImage := by dsimp only [phaseSum, accumulatePacket, draw]
@[simp] theorem phaseSum_kidx (s : State) : (phaseSum s).kidx = s.kidx := by dsimp only [phaseSum, accumulatePacket, draw]
@[simp] theorem phaseSum_state (s : State) : (phaseSum s).state = s.state := by dsimp only [phaseSum, accumulatePacket, draw]
@[simp] theorem phaseSum_seq (s : State) : (phaseSum s).seq = s.seq := by dsimp only [phaseSum, accumulatePacket, draw]
@[simp] theorem phaseSum_vok (s : State) : (phaseSum s).vok = s.vok := by dsimp only [phaseSum, accumulatePacket, draw]
@[simp] theorem phaseSum_herr (s : State) : (phaseSum s).herr = s.herr := by dsimp only [phaseSum, accumulatePacket, draw]
@[simp] theorem phaseSum_err (s : State) : (phaseSum s).err = s.err := by dsimp only [phaseSum, accumulatePacket, draw]
@[simp] theorem phaseSum_conn (s : State) : (phaseSum s).conn = s.conn := by dsimp only [phaseSum, accumulatePacket, draw]
@[simp] theorem phaseSum_pos (s : State) : (phaseSum s).pos = BitVec.ofNat 64 s.summedImage.length := by dsimp only [phaseSum, accumulatePacket, draw]
@[simp] theorem phaseSum_rxcsum (s : State) : (phaseSum s).rxcsum = s.rxcsum := by dsimp only [phaseSum, accumulatePacket, draw]
@[simp] theorem phaseSum_rxq (s : State) : (phaseSum s).rxq = s.rxq := by dsimp only [phaseSum, accumulatePacket, draw]
@[simp] theorem phaseSum_rxeof (s : State) : (phaseSum s).rxeof = s.rxeof := by dsimp only [phaseSum, accumulatePacket, draw]
@[simp] theorem phaseSum_txlog (s : State) : (phaseSum s).txlog = s.txlog := by dsimp only [phaseSum, accumulatePacket, draw]
@[simp] theorem phaseSum_hdrTaken (s : State) : (phaseSum s).hdrTaken = s.hdrTaken := by dsimp only [phaseSum, accumulatePacket, draw]
@[simp] theorem phaseSum_txPlan (s : State) : (phaseSum s).txPlan = s.txPlan := by dsimp only [phaseSum, accumulatePacket, draw]
@[simp] theorem phaseSum_params (s : State) : (phaseSum s).params = s.params := by dsimp only [phaseSum, accumulatePacket, draw]
@[simp] theorem phaseSum_agenda (s : State) : (phaseSum s).agenda = s.agenda := by dsimp only [phaseSum, accumulatePacket, draw]
@[simp] theorem phaseSum_pace (s : State) : (phaseSum s).pace = s.pace := by dsimp only [phaseSum, accumulatePacket, draw]
@[simp] theorem phaseSum_reads (s : State) : (phaseSum s).reads = s.reads := by dsimp only [phaseSum, accumulatePacket, draw]
@[simp] theorem phaseSum_draws (s : State) : (phaseSum s).draws = s.draws + 1 := by dsimp only [phaseSum, accumulatePacket, draw]

/-! ### `phaseVerify` -/

@[simp] theorem phaseVerify_op (s : State) : (phaseVerify s).op = s.op := by dsimp only [phaseVerify, accumulatePacket, draw]
@[simp] theorem phaseVerify_csum (s : State) : (phaseVerify s).csum = s.csum := by dsimp only [phaseVerify, accumulatePacket, draw]
@[simp] theorem phaseVerify_key (s : State) : (phaseVerify s).key = s.key := by dsimp only [phaseVerify, accumulatePacket, draw]
@[simp] theorem phaseVerify_len (s : State) : (phaseVerify s).len = s.len := by dsimp only [phaseVerify, accumulatePacket, draw]
@[simp] theorem phaseVerify_pay (s : State) : (phaseVerify s).pay = s.pay := by dsimp only [phaseVerify, accumulatePacket, draw]
@[simp] theorem phaseVerify_sum (s : State) : (phaseVerify s).sum = accumulate s.params.hostOrder s.summedImage := by dsimp only [phaseVerify, accumulatePacket, draw]
@[simp] theorem phaseVerify_kidx (s : State) : (phaseVerify s).kidx = s.kidx := by dsimp only [phaseVerify, accumulatePacket, draw]
@[simp] theorem phaseVerify_state (s : State) : (phaseVerify s).state = s.state := by dsimp only [phaseVerify, accumulatePacket, draw]
@[simp] theorem phaseVerify_seq (s : State) : (phaseVerify s).seq = s.seq := by dsimp only [phaseVerify, accumulatePacket, draw]
@[simp] theorem phaseVerify_vok (s : State) : (phaseVerify s).vok = decide (cksum s.params.hostOrder s.summedImage = s.csum) := by dsimp only [phaseVerify, accumulatePacket, draw]; rfl
@[simp] theorem phaseVerify_herr (s : State) : (phaseVerify s).herr = s.herr := by dsimp only [phaseVerify, accumulatePacket, draw]
@[simp] theorem phaseVerify_err (s : State) : (phaseVerify s).err = s.err := by dsimp only [phaseVerify, accumulatePacket, draw]
@[simp] theorem phaseVerify_conn (s : State) : (phaseVerify s).conn = s.conn := by dsimp only [phaseVerify, accumulatePacket, draw]
@[simp] theorem phaseVerify_pos (s : State) : (phaseVerify s).pos = BitVec.ofNat 64 s.summedImage.length := by dsimp only [phaseVerify, accumulatePacket, draw]
@[simp] theorem phaseVerify_rxcsum (s : State) : (phaseVerify s).rxcsum = s.csum := by dsimp only [phaseVerify, accumulatePacket, draw]
@[simp] theorem phaseVerify_rxq (s : State) : (phaseVerify s).rxq = s.rxq := by dsimp only [phaseVerify, accumulatePacket, draw]
@[simp] theorem phaseVerify_rxeof (s : State) : (phaseVerify s).rxeof = s.rxeof := by dsimp only [phaseVerify, accumulatePacket, draw]
@[simp] theorem phaseVerify_txlog (s : State) : (phaseVerify s).txlog = s.txlog := by dsimp only [phaseVerify, accumulatePacket, draw]
@[simp] theorem phaseVerify_hdrTaken (s : State) : (phaseVerify s).hdrTaken = s.hdrTaken := by dsimp only [phaseVerify, accumulatePacket, draw]
@[simp] theorem phaseVerify_txPlan (s : State) : (phaseVerify s).txPlan = s.txPlan := by dsimp only [phaseVerify, accumulatePacket, draw]
@[simp] theorem phaseVerify_params (s : State) : (phaseVerify s).params = s.params := by dsimp only [phaseVerify, accumulatePacket, draw]
@[simp] theorem phaseVerify_agenda (s : State) : (phaseVerify s).agenda = s.agenda := by dsimp only [phaseVerify, accumulatePacket, draw]
@[simp] theorem phaseVerify_pace (s : State) : (phaseVerify s).pace = s.pace := by dsimp only [phaseVerify, accumulatePacket, draw]
@[simp] theorem phaseVerify_reads (s : State) : (phaseVerify s).reads = s.reads := by dsimp only [phaseVerify, accumulatePacket, draw]
@[simp] theorem phaseVerify_draws (s : State) : (phaseVerify s).draws = s.draws + 1 := by dsimp only [phaseVerify, accumulatePacket, draw]

/-! ### `phaseXform` -/

@[simp] theorem phaseXform_op (d : Direction) (s : State) : (phaseXform d s).op = s.op := by dsimp only [phaseXform, draw]
@[simp] theorem phaseXform_csum (d : Direction) (s : State) : (phaseXform d s).csum = s.csum := by dsimp only [phaseXform, draw]
@[simp] theorem phaseXform_key (d : Direction) (s : State) : (phaseXform d s).key = s.key := by dsimp only [phaseXform, draw]
@[simp] theorem phaseXform_len (d : Direction) (s : State) : (phaseXform d s).len = s.len := by dsimp only [phaseXform, draw]
@[simp] theorem phaseXform_pay (d : Direction) (s : State) : (phaseXform d s).pay = s.pay.writeBytes 0 (walk d.byte s.key 0#2 s.payload).1 := by dsimp only [phaseXform, draw]
@[simp] theorem phaseXform_sum (d : Direction) (s : State) : (phaseXform d s).sum = s.sum := by dsimp only [phaseXform, draw]
@[simp] theorem phaseXform_kidx (d : Direction) (s : State) : (phaseXform d s).kidx = (walk d.byte s.key 0#2 s.payload).2 := by dsimp only [phaseXform, draw]
@[simp] theorem phaseXform_state (d : Direction) (s : State) : (phaseXform d s).state = s.state := by dsimp only [phaseXform, draw]
@[simp] theorem phaseXform_seq (d : Direction) (s : State) : (phaseXform d s).seq = s.seq := by dsimp only [phaseXform, draw]
@[simp] theorem phaseXform_vok (d : Direction) (s : State) : (phaseXform d s).vok = s.vok := by dsimp only [phaseXform, draw]
@[simp] theorem phaseXform_herr (d : Direction) (s : State) : (phaseXform d s).herr = s.herr := by dsimp only [phaseXform, draw]
@[simp] theorem phaseXform_err (d : Direction) (s : State) : (phaseXform d s).err = s.err := by dsimp only [phaseXform, draw]
@[simp] theorem phaseXform_conn (d : Direction) (s : State) : (phaseXform d s).conn = s.conn := by dsimp only [phaseXform, draw]
@[simp] theorem phaseXform_pos (d : Direction) (s : State) : (phaseXform d s).pos = BitVec.ofNat 64 s.payloadSize := by dsimp only [phaseXform, draw]
@[simp] theorem phaseXform_rxcsum (d : Direction) (s : State) : (phaseXform d s).rxcsum = s.rxcsum := by dsimp only [phaseXform, draw]
@[simp] theorem phaseXform_rxq (d : Direction) (s : State) : (phaseXform d s).rxq = s.rxq := by dsimp only [phaseXform, draw]
@[simp] theorem phaseXform_rxeof (d : Direction) (s : State) : (phaseXform d s).rxeof = s.rxeof := by dsimp only [phaseXform, draw]
@[simp] theorem phaseXform_txlog (d : Direction) (s : State) : (phaseXform d s).txlog = s.txlog := by dsimp only [phaseXform, draw]
@[simp] theorem phaseXform_hdrTaken (d : Direction) (s : State) : (phaseXform d s).hdrTaken = s.hdrTaken := by dsimp only [phaseXform, draw]
@[simp] theorem phaseXform_txPlan (d : Direction) (s : State) : (phaseXform d s).txPlan = s.txPlan := by dsimp only [phaseXform, draw]
@[simp] theorem phaseXform_params (d : Direction) (s : State) : (phaseXform d s).params = s.params := by dsimp only [phaseXform, draw]
@[simp] theorem phaseXform_agenda (d : Direction) (s : State) : (phaseXform d s).agenda = s.agenda := by dsimp only [phaseXform, draw]
@[simp] theorem phaseXform_pace (d : Direction) (s : State) : (phaseXform d s).pace = s.pace := by dsimp only [phaseXform, draw]
@[simp] theorem phaseXform_reads (d : Direction) (s : State) : (phaseXform d s).reads = s.reads := by dsimp only [phaseXform, draw]
@[simp] theorem phaseXform_draws (d : Direction) (s : State) : (phaseXform d s).draws = s.draws + 1 := by dsimp only [phaseXform, draw]

end Sys2Proof.Machine
end

