-- ==== Sys2Proof/Laws/Memory.lean ====
section
/-! SUPPORT. The payload memory: what a read gives after each operation, and that every operation keeps the canonical
form and the range. -/

namespace Sys2Proof.Machine

/-! ### Reads -/

theorem Memory.read_write_self (m : Memory) (a : Nat) (b : Byte) : (m.write a b).read a = some b := by
  induction m with
  | nil => simp [Memory.write, Memory.read]
  | cons c rest ih =>
    obtain ⟨x, v⟩ := c
    unfold Memory.write
    split
    · simp [Memory.read]
    · split
      · simp [Memory.read]
      · simp_all [Memory.read]

theorem Memory.read_write_other (m : Memory) (a a' : Nat) (b : Byte) (h : a' ≠ a) :
    (m.write a b).read a' = m.read a' := by
  induction m with
  | nil => simp [Memory.write, Memory.read, h]
  | cons c rest ih =>
    obtain ⟨x, v⟩ := c
    unfold Memory.write
    split
    · simp [Memory.read, h]
    · split
      · subst x; simp [Memory.read, h]
      · simp [Memory.read, ih]

/-- What one write does to every read. -/
theorem Memory.read_write (m : Memory) (a a' : Nat) (b : Byte) :
    (m.write a b).read a' = if a' = a then some b else m.read a' := by
  by_cases h : a' = a
  · subst h; simp [Memory.read_write_self]
  · simp [h, Memory.read_write_other m a a' b h]

/-- What a block write does to every read. -/
theorem Memory.read_writeBytes (bs : Bytes) (m : Memory) (a a' : Nat) :
    (m.writeBytes a bs).read a' = if a ≤ a' ∧ a' < a + bs.length then bs[a' - a]? else m.read a' := by
  induction bs generalizing m a with
  | nil =>
    have : ¬(a ≤ a' ∧ a' < a) := by omega
    simp [Memory.writeBytes, this]
  | cons b bs ih =>
    rw [Memory.writeBytes, ih, Memory.read_write]
    by_cases h1 : a' = a
    · subst h1; simp
    · by_cases h2 : a + 1 ≤ a' ∧ a' < a + 1 + bs.length
      · have h3 : a ≤ a' ∧ a' < a + (b :: bs).length := by simp; omega
        have h4 : a' - a = (a' - (a + 1)) + 1 := by omega
        rw [if_pos h2, if_pos h3, h4, List.getElem?_cons_succ]
      · have h3 : ¬(a ≤ a' ∧ a' < a + (b :: bs).length) := by simp; omega
        rw [if_neg h2, if_neg h3, if_neg h1]

theorem Memory.read_forgetBelow (m : Memory) (n a : Nat) :
    (m.forgetBelow n).read a = if n ≤ a then m.read a else Memory.unlisted := by
  unfold Memory.forgetBelow
  induction m with
  | nil => simp [Memory.read]
  | cons c rest ih =>
    obtain ⟨x, v⟩ := c
    by_cases hx : n ≤ x
    · by_cases ha : a = x
      · subst ha; simp [Memory.read, hx]
      · simpa [Memory.read, hx, ha] using ih
    · by_cases ha : a = x
      · subst ha; simpa [hx] using ih
      · simpa [Memory.read, hx, ha] using ih

/-! ### The canonical form -/

/-- A write adds no entry but its own. -/
theorem Memory.mem_write (m : Memory) (a : Nat) (b : Byte) (c : Host.Cell) (h : c ∈ m.write a b) :
    c = (a, b) ∨ c ∈ m := by
  induction m with
  | nil => simpa [Memory.write] using h
  | cons d rest ih =>
    obtain ⟨x, v⟩ := d
    unfold Memory.write at h
    split at h
    · simpa using h
    · split at h
      · rcases List.mem_cons.mp h with h | h
        · exact .inl h
        · exact .inr (List.mem_cons_of_mem _ h)
      · rcases List.mem_cons.mp h with h | h
        · exact .inr (h ▸ List.mem_cons_self)
        · exact (ih h).imp id (List.mem_cons_of_mem _)

theorem Memory.keys_write_above (m : Memory) (a n : Nat) (b : Byte) (hn : n < a)
    (h : ∀ x ∈ m.map Prod.fst, n < x) : ∀ x ∈ (m.write a b).map Prod.fst, n < x := by
  intro x hx
  obtain ⟨c, hc, rfl⟩ := List.mem_map.mp hx
  rcases Memory.mem_write m a b c hc with rfl | hc
  · exact hn
  · exact h _ (List.mem_map_of_mem hc)

theorem Memory.wf_write (m : Memory) (a : Nat) (b : Byte) (h : m.wf) : (m.write a b).wf := by
  induction m with
  | nil => simp [Memory.wf, Memory.write]
  | cons c rest ih =>
    obtain ⟨x, v⟩ := c
    have hc : (∀ y ∈ rest.map Prod.fst, x < y) ∧ Memory.wf rest := by simpa [Memory.wf] using h
    unfold Memory.write
    split
    · rename_i hlt
      simp only [Memory.wf, List.map_cons, List.pairwise_cons, List.mem_cons]
      refine ⟨?_, hc.1, hc.2⟩
      rintro y (rfl | hy)
      · exact hlt
      · exact Nat.lt_trans hlt (hc.1 y hy)
    · split
      · rename_i heq
        subst heq
        simpa [Memory.wf] using hc
      · have hlt : x < a := by omega
        simp only [Memory.wf, List.map_cons, List.pairwise_cons]
        exact ⟨Memory.keys_write_above rest a x b hlt hc.1, ih hc.2⟩

theorem Memory.wf_writeBytes (bs : Bytes) (m : Memory) (a : Nat) (h : m.wf) : (m.writeBytes a bs).wf := by
  induction bs generalizing m a with
  | nil => exact h
  | cons b bs ih => exact ih _ _ (Memory.wf_write m a b h)

theorem Memory.wf_forgetBelow (m : Memory) (n : Nat) (h : m.wf) : (m.forgetBelow n).wf :=
  List.Pairwise.sublist (List.Sublist.map _ List.filter_sublist) h

/-! ### The range -/

/-- The payload memory after reset has the canonical form. -/
theorem reset_pay_wf : State.reset.pay.wf := List.Pairwise.nil

theorem Memory.inRange_write (m : Memory) (a n : Nat) (b : Byte) (ha : a < n) (h : m.inRange n) :
    (m.write a b).inRange n := by
  intro c hc
  rcases Memory.mem_write m a b c hc with rfl | hc
  · exact ha
  · exact h c hc

theorem Memory.inRange_writeBytes (bs : Bytes) (m : Memory) (a n : Nat) (ha : a + bs.length ≤ n)
    (h : m.inRange n) : (m.writeBytes a bs).inRange n := by
  induction bs generalizing m a with
  | nil => exact h
  | cons b bs ih =>
    simp only [List.length_cons] at ha
    exact ih _ _ (by omega) (Memory.inRange_write m a n b (by omega) h)

theorem Memory.inRange_forgetBelow (m : Memory) (k n : Nat) (h : m.inRange n) : (m.forgetBelow k).inRange n :=
  fun c hc => h c (List.mem_filter.mp hc).1

/-! ### Payload reads -/

@[simp] theorem payBytes_length (s : State) (n : Nat) : (payBytes s n).length = n := by simp [payBytes]

/-- A byte that has been written reads as what was written, whatever the free values are. -/
theorem payByte_written (s : State) (a : Nat) (b : Byte) (h : s.pay.read a = some b) : payByte s a = b := by
  simp [payByte, h]

/-- The payload's bytes depend on `PAY` and the draw alone. -/
theorem payBytes_congr (s t : State) (n : Nat) (hp : t.pay = s.pay) (hd : t.draws = s.draws) :
    payBytes t n = payBytes s n := by
  simp [payBytes, payByte, hp, hd]

/-- When every byte below `bs.length` has been written, the payload read is what was written. -/
theorem payBytes_eq (s : State) (bs : Bytes) (h : ∀ a, a < bs.length → s.pay.read a = bs[a]?) :
    payBytes s bs.length = bs := by
  apply List.ext_getElem
  · simp
  · intro i h1 h2
    have := h i h2
    simp only [payBytes, List.getElem_map, List.getElem_range]
    exact payByte_written s i _ (by rw [this]; simp [h2])

end Sys2Proof.Machine
end

