-- ==== Sys2Proof/Laws/Ops.lean ====
section
/-! SUPPORT. One lemma per shared operation that says everything it can do; proofs cite these and do not unfold. -/

namespace Sys2Proof.Machine

/-! ### Acceptance and checks -/

theorem acceptHousekeeping_cases (s : State) (run : State → State) :
    (s.busy = true ∧ acceptHousekeeping s run = hostError s) ∨
      (s.busy = false ∧ acceptHousekeeping s run = run s) := by
  unfold acceptHousekeeping
  cases h : s.busy <;> simp

theorem acceptCommand_cases (s : State) (run : State → State) :
    ((s.busy = true ∨ s.state.terminal = true) ∧ acceptCommand s run = hostError s) ∨
      (s.state = .idle ∧ acceptCommand s run = run s) := by
  unfold acceptCommand State.busy
  cases h : s.state <;> simp [SeqState.busy, SeqState.terminal]

theorem checkLen_eq_none (s : State) : checkLen s = none ↔ lengthOk s := by
  unfold checkLen lengthOk Config.headerBytes
  split
  · simp; omega
  · split
    · simp; omega
    · simp; omega

/-- The length check's verdict, in R182's order. -/
theorem checkLen_cases (s : State) :
    (s.len.toNat < 16 ∧ checkLen s = some .badLen) ∨
      (16 ≤ s.len.toNat ∧ s.params.maxPayload < s.len.toNat - 16 ∧ checkLen s = some .tooBig) ∨
      (lengthOk s ∧ checkLen s = none) := by
  unfold checkLen lengthOk Config.headerBytes
  split
  · simp; omega
  · split
    · simp; omega
    · simp; omega

theorem checkKey_eq_none (s : State) : checkKey s = none ↔ keyValid s.key = true := by
  unfold checkKey
  split <;> simp_all

theorem checked_cases (check : State → Option Cause) (s : State) (run : State → State) :
    (∃ c, check s = some c ∧ checked check s run = reject c s) ∨ (check s = none ∧ checked check s run = run s) := by
  unfold checked
  cases h : check s <;> simp

/-! ### The link primitives -/

/-- `RxTake(k)` answers the first `k` bytes, or `closed`, or holds (R57). -/
theorem rxTake_cases (k : Nat) (s : State) :
    (k ≤ s.rxq.length ∧ rxTake k s = .bytes (s.rxq.take k) { s with rxq := s.rxq.drop k }) ∨
      (s.rxq.length < k ∧ s.rxeof = true ∧
        rxTake k s = .closed { s with rxq := s.rxq.drop (Config.lostBytes s.draws), draws := s.draws + 1 }) ∨
      (s.rxq.length < k ∧ s.rxeof = false ∧ rxTake k s = .hold) := by
  unfold rxTake
  split
  · simp_all
  · split
    · simp_all
    · split
      · simp_all
      · simp_all

/-- `TxPut(B)` appends all of `B`, or a proper prefix of a non-empty `B`, or holds (R58). -/
theorem txPut_cases (bs : Bytes) (s : State) (hb : bs ≠ []) :
    (∃ plan, s.txPlan = .ok :: plan ∧ txPut bs s = .ok { s with txlog := s.txlog ++ bs, txPlan := plan }) ∨
      (∃ p plan q, s.txPlan = .fail p :: plan ∧ q < bs.length ∧
        txPut bs s = .fail { s with txlog := s.txlog ++ bs.take q, txPlan := plan }) ∨
      (s.txPlan = [] ∧ txPut bs s = .hold) := by
  have hl : 0 < bs.length := List.length_pos_of_ne_nil hb
  unfold txPut
  split
  · simp_all
  · exact .inl ⟨_, by assumption, rfl⟩
  · exact .inr (.inl ⟨_, _, _, by assumption, by unfold failedCount; omega, rfl⟩)

/-! ### The engine -/

/-- The engine is enabled only while busy (R190: nothing but `CLEAR` and reset leaves `IDLE`, `CLOSED`, `REJECTED`
without a command). -/
theorem engineStep_busy (s t : State) (h : engineStep s = some t) : s.busy = true := by
  unfold engineStep at h
  unfold State.busy
  cases hs : s.state <;> simp_all [SeqState.busy]

/-- A run of the engine ends where its first step, if enabled, and the rest of the run lead. -/
theorem runEngine_succ (k : Nat) (s : State) :
    (engineStep s = none ∧ runEngine (k + 1) s = s) ∨
      (∃ t, engineStep s = some t ∧ runEngine (k + 1) s = runEngine k t) := by
  cases h : engineStep s <;> simp [runEngine, h]

/-- What every engine step keeps, a run keeps. -/
theorem runEngine_keeps {P : State → Prop} (hstep : ∀ s t, P s → engineStep s = some t → P t)
    (k : Nat) (s : State) (h : P s) : P (runEngine k s) := by
  induction k generalizing s with
  | zero => exact h
  | succ k ih =>
    rcases runEngine_succ k s with ⟨_, e⟩ | ⟨t, ht, e⟩
    · rw [e]; exact h
    · rw [e]; exact ih t (hstep s t h ht)

theorem advance_cases (s : State) :
    (s.pace = .merged ∧ advance s = runEngine longestRun s) ∨ (s.pace = .phased ∧ advance s = s) := by
  unfold advance
  cases s.pace <;> simp

/-- What every engine step keeps, `advance` keeps. -/
theorem advance_keeps {P : State → Prop} (hstep : ∀ s t, P s → engineStep s = some t → P t)
    (s : State) (h : P s) : P (advance s) := by
  rcases advance_cases s with ⟨_, e⟩ | ⟨_, e⟩
  · rw [e]; exact runEngine_keeps hstep _ s h
  · rw [e]; exact h

/-- What every engine step keeps, the engine's run in one turn keeps. -/
theorem engineRun_keeps {P : State → Prop} (hstep : ∀ s t, P s → engineStep s = some t → P t)
    (s : State) (h : P s) : P (engineRun s) := by
  unfold engineRun
  cases e : engineStep s with
  | none => exact h
  | some t => exact advance_keeps hstep t (hstep s t h e)

/-! ### Views of the packet state -/

theorem payload_congr (s t : State) (hp : t.pay = s.pay) (hd : t.draws = s.draws) (hl : t.len = s.len) :
    t.payload = s.payload := by
  unfold State.payload State.payloadSize
  rw [hl]
  exact payBytes_congr s t _ hp hd

@[simp] theorem payload_length (s : State) : s.payload.length = s.payloadSize := by
  simp [State.payload]

/-! ### The fetch -/

/-- Where a packet is fetched, and what is left (R57, R74). -/
theorem fetchPacket_some (s t : State) (i : Instr) (h : fetchPacket s = some (i, t)) :
    awaitsPacket s = true ∧ Config.headerBytes ≤ s.rxq.length ∧
      decode s.params.hostOrder .pkt (s.rxq.take Config.headerBytes) = .ok i ∧
      t = { s with rxq := s.rxq.drop Config.headerBytes } := by
  unfold fetchPacket at h
  split at h
  · rename_i hc
    simp only [Bool.and_eq_true, decide_eq_true_eq] at hc
    split at h
    · simp only [Option.some.injEq, Prod.mk.injEq] at h
      obtain ⟨rfl, rfl⟩ := h
      exact ⟨hc.1, hc.2, by assumption, rfl⟩
    · simp at h
  · simp at h

/-! ### Several instances (R217) -/

/-- A step of instance `k` leaves every other instance as it was. -/
theorem stepAt_other (k j : Nat) (system : List State) (h : j ≠ k) : (stepAt k system)[j]? = system[j]? := by
  simp [stepAt, Ne.symm h]

/-- Instance `k` takes the step of its own state, whatever the others hold. -/
theorem stepAt_self (k : Nat) (system : List State) (s t : State) (hs : system[k]? = some s) (ht : step s = .next t) :
    (stepAt k system)[k]? = some t := by
  simp [stepAt, hs, ht]

end Sys2Proof.Machine
end

