-- ==== Sys2Proof/Laws/PerInstr.lean ====
section
/-! SUPPORT. Statements made of every instruction as syntax, one lemma per constructor. -/

namespace Sys2Proof.Laws

@[simp] theorem bytesLe_length (n v : Nat) : (bytesLe n v).length = n := by
  induction n generalizing v with
  | zero => rfl
  | succ n ih => simp [bytesLe, ih]

@[simp] theorem bytesBe_length (n v : Nat) : (bytesBe n v).length = n := by simp [bytesBe]

@[simp] theorem orderedBytes_length (o : ByteOrder) (n v : Nat) : (orderedBytes o n v).length = n := by
  cases o <;> simp [orderedBytes]

/-- A header image has 16 bytes (R72). -/
@[simp] theorem headerImage_length (o : ByteOrder) (h : Header) : (headerImage o h).length = 16 := by
  simp [headerImage, Keyword.bytes]

/-- The number of bytes of a format's instructions: one command byte (R77), a 16-byte header (R71). -/
def formatBytes : Format → Nat
  | .cmd => 1
  | .pkt => 16

/-- An instruction's encoding has the length of its format, in either byte order. -/
def EncodedLength.Statement (i : Instr) : Prop := ∀ o : ByteOrder, (encode o i).length = formatBytes i.format

theorem EncodedLength.nop : EncodedLength.Statement .nop := fun _ => rfl
theorem EncodedLength.clear : EncodedLength.Statement .clear := fun _ => rfl
theorem EncodedLength.recv : EncodedLength.Statement .recv := fun _ => rfl
theorem EncodedLength.gen : EncodedLength.Statement .gen := fun _ => rfl
theorem EncodedLength.verify : EncodedLength.Statement .verify := fun _ => rfl
theorem EncodedLength.enc : EncodedLength.Statement .enc := fun _ => rfl
theorem EncodedLength.dec : EncodedLength.Statement .dec := fun _ => rfl
theorem EncodedLength.send : EncodedLength.Statement .send := fun _ => rfl
theorem EncodedLength.serve : EncodedLength.Statement .serve := fun _ => rfl
theorem EncodedLength.pktEncrypt (csum : Half) (key : Keyword) (len : Word64) :
    EncodedLength.Statement (.pktEncrypt csum key len) := fun o => headerImage_length o _
theorem EncodedLength.pktDecrypt (csum : Half) (key : Keyword) (len : Word64) :
    EncodedLength.Statement (.pktDecrypt csum key len) := fun o => headerImage_length o _

end Sys2Proof.Laws
end

