-- ==== Sys2Proof/Tests/Slice0.lean ====
section
/-! SUPPORT. Tests against spec/95_test_vectors.md (each names its vector), the smoke test of WellFormed, one decoding per
constructor from a word written out from R71 and R78, and a witness for the hypotheses of every statement that has any. -/

namespace Sys2Proof.Tests

open Sys2Proof Sys2Proof.Machine

/-! ### Small states and views -/

/-- The keyword "abcd". -/
def abcd : Keyword := { k0 := 0x61#8, k1 := 0x62#8, k2 := 0x63#8, k3 := 0x64#8 }

/-- "Hello". -/
def hello : Bytes := [0x48#8, 0x65#8, 0x6c#8, 0x6c#8, 0x6f#8]

/-- "hfnoo", the encryption of "Hello" under "abcd" (S1). -/
def hfnoo : Bytes := [0x68#8, 0x66#8, 0x6e#8, 0x6f#8, 0x6f#8]

/-- The last three bytes of an 8-byte length below 256, and the five before them. -/
def lenBytes (n : Byte) : Bytes := [0#8, 0#8, 0#8, 0#8, 0#8, 0#8, 0#8, n]

/-- V2's header bytes under BE (`0000 85e3 61626364 0000000000000015`). -/
def v2Header : Bytes := [0x00#8, 0x00#8, 0x85#8, 0xe3#8, 0x61#8, 0x62#8, 0x63#8, 0x64#8] ++ lenBytes 0x15#8

/-- V2's packet under BE. -/
def v2 : Bytes := v2Header ++ hello

/-- The response to V2 under BE (P1). -/
def v2Response : Bytes :=
  [0x00#8, 0x00#8, 0x63#8, 0xdf#8, 0x61#8, 0x62#8, 0x63#8, 0x64#8] ++ lenBytes 0x15#8 ++ hfnoo

/-- V2c's packet under BE: the decrypt request for "hfnoo". -/
def v2c : Bytes :=
  [0x00#8, 0x01#8, 0x63#8, 0xde#8, 0x61#8, 0x62#8, 0x63#8, 0x64#8] ++ lenBytes 0x15#8 ++ hfnoo

/-- V2's header as registers. -/
def v2Regs : Header := { op := 0#16, csum := 0x85e3#16, key := abcd, len := 21#64 }

/-- A memory that holds `bs` from address 0. -/
def holding (bs : Bytes) : Memory := Memory.writeBytes [] 0 bs

/-- Reset, with a packet in the registers and in `PAY`. -/
def withPacket (h : Header) (p : Bytes) : State :=
  { State.reset with op := h.op, csum := h.csum, key := h.key, len := h.len, pay := holding p }

/-- Reset, with bytes delivered. -/
def delivered (bs : Bytes) : State := { State.reset with rxq := bs }

/-- A link that accepts the next write. -/
def accepting (s : State) : State := { s with txPlan := [.ok] }

/-- `SERVE` awaiting a header. -/
def awaiting (s : State) : State := { s with state := .receiving, seq := true }

/-- A view of the state an outcome leaves. -/
def view {α : Type} (f : State → α) (o : Host.Outcome State Fault Refusal) : Option α :=
  match o with
  | .next t => some (f t)
  | .fault _ => none
  | .refused _ => none

/-- `P1` served up to `CLOSED`, `STATUS` 0x1047. -/
def closedState : State := { State.reset with state := .closed, vok := true, kidx := 1#2, conn := false }

/-- C4: a `RECV` held with ten bytes of V2 delivered. -/
def heldState : State := { delivered (v2.take 10) with state := .receiving }

/-! ### WellFormed -/

theorem test_wellFormed_accepts : (Instr.pktEncrypt 0x85e3#16 abcd 21#64).wellFormed Config.hardware = true := by decide
theorem test_pktEncrypt_len15_refused : (Instr.pktEncrypt 0#16 abcd 15#64).wellFormed Config.hardware = false := by decide
theorem test_pktDecrypt_len15_refused : (Instr.pktDecrypt 0#16 abcd 15#64).wellFormed Config.hardware = false := by decide
/-- X3: one byte more than `MAX_PAYLOAD`; X3b is the boundary that is accepted. -/
theorem test_pktEncrypt_tooBig_refused :
    (Instr.pktEncrypt 0#16 abcd 0xa00011#64).wellFormed Config.hardware = false ∧
    (Instr.pktEncrypt 0#16 abcd 0xa00010#64).wellFormed Config.hardware = true := by decide
theorem test_pktDecrypt_tooBig_refused :
    (Instr.pktDecrypt 0#16 abcd 0xffffffffffffffff#64).wellFormed Config.hardware = false := by decide

/-! ### Decoding: one word per constructor, from R78 and R71 -/

theorem test_decode_commands :
    [0x00, 0x01, 0x02, 0x03, 0x04, 0x05, 0x06, 0x07, 0x08, 0x09, 0xff].map (decodeTableWord 8) =
      [some .nop, some .clear, some .recv, some .gen, some .verify, some .enc, some .dec, some .send, some .serve,
        none, none] := by decide
/-- E1. -/
theorem test_decode_pktEncrypt :
    decodeTableWord 128 0x000085e3616263640000000000000015 = some (.pktEncrypt 0x85e3#16 abcd 21#64) := by decide
/-- V4's header: operation 1, keyword "keys", length 31. -/
theorem test_decode_pktDecrypt :
    decodeTableWord 128 0x0001e9bf6b657973000000000000001f =
      some (.pktDecrypt 0xe9bf#16 { k0 := 0x6b#8, k1 := 0x65#8, k2 := 0x79#8, k3 := 0x73#8 } 31#64) := by decide
/-- P6's header (operation 2), and 0x0100 (R186). -/
theorem test_decode_other_operations :
    decodeTableWord 128 0x000285e1616263640000000000000015 = none ∧
    decodeTableWord 128 0x010085e1616263640000000000000015 = none := by decide
/-- E2, E5, E6: only the checksum field follows `HOST_ORDER`. -/
theorem test_header_byte_orders :
    headerImage .le v2Regs = [0x00#8, 0x00#8, 0xe3#8, 0x85#8, 0x61#8, 0x62#8, 0x63#8, 0x64#8] ++ lenBytes 0x15#8 ∧
    (parseHeader .le ([0x00#8, 0x02#8, 0x17#8, 0x50#8, 0x61#8, 0x62#8, 0x63#8, 0x64#8] ++ lenBytes 0x15#8)).csum =
      0x5017#16 := by decide

/-! ### Checksum and cipher functions -/

/-- 2.2, rows of `eac64`. -/
theorem test_eac64 :
    eac64 0xffffffffffffffff#64 1#64 = 1#64 ∧ eac64 0xfffffffffffffffe#64 1#64 = 0xffffffffffffffff#64 ∧
    eac64 0x8000000000000000#64 0x8000000000000000#64 = 1#64 := by decide
/-- 2.2, rows of the folds. -/
theorem test_folds :
    fold32 0xffffffff00000001#64 = 1#32 ∧ fold32 0x123456789abcdef0#64 = 0xacf13568#32 ∧
    fold16 0x0001ffff#32 = 1#16 ∧ fold16 0x12345678#32 = 0x68ac#16 := by decide
/-- V4: one word of each size, in both orders. -/
theorem test_accumulate_sizes :
    let h : Header := { op := 1#16, csum := 0#16, key := { k0 := 0x6b#8, k1 := 0x65#8, k2 := 0x79#8, k3 := 0x73#8 }, len := 31#64 }
    let p : Bytes := [1#8, 2#8, 3#8, 4#8, 5#8, 6#8, 7#8, 8#8, 9#8, 10#8, 11#8, 12#8, 13#8, 14#8, 15#8]
    accumulate .be (checksumImage .be h p) = 0x01030304797598c3#64 ∧ cksum .le (checksumImage .le h p) = 0xceda#16 := by
  decide +kernel
/-- 2.4, rows of `enc_byte` and `dec_byte`. -/
theorem test_cipher_bytes :
    encByte 0x7a#8 0x7a#8 = (0x79#8, true) ∧ decByte 0x61#8 0x7a#8 = (0x62#8, true) ∧
    encByte 0x5a#8 0x62#8 = (0x61#8, true) ∧ encByte 0x40#8 0x62#8 = (0x40#8, false) ∧
    decByte 0xc1#8 0x62#8 = (0xc1#8, false) := by decide

/-! ### One step per instruction -/

/-- H8, and H6's refusal while busy. -/
theorem test_nop :
    view id (exec .nop closedState) = some closedState ∧ view State.status (exec .nop heldState) = some 0x4091#16 := by
  decide +kernel
/-- H9: `CLEAR` after `CLOSED`. -/
theorem test_clear_closed : view (fun t => (t.status, t.len)) (exec .clear closedState) = some (0x0000#16, 16#64) := by
  decide +kernel
/-- C3: exactly `LEN` bytes are taken. -/
theorem test_recv :
    view (fun t => (t.header, t.pay, t.rxq, t.status)) (exec .recv (delivered (v2 ++ [0xde#8, 0xad#8]))) =
      some (v2Regs, holding hello, [0xde#8, 0xad#8], 0x4000#16) := by decide +kernel
/-- X1 as a `RECV`: rejected with the 16 bytes taken. -/
theorem test_recv_badLen :
    view (fun t => (t.status, t.len, t.rxq))
      (exec .recv (delivered (v2Header.take 15 ++ [0x0a#8, 0x01#8, 0x02#8]))) =
      some (0x0108#16, 10#64, [0x01#8, 0x02#8]) := by decide +kernel
/-- V2. -/
theorem test_gen :
    view (fun t => (t.sum, t.csum, t.status)) (exec .gen (withPacket { v2Regs with csum := 0#16 } hello)) =
      some (0xa9c7d054#64, 0x85e3#16, 0x4000#16) := by decide +kernel
/-- X2. -/
theorem test_gen_badLen :
    view (fun t => (t.status, t.sum, t.csum)) (exec .gen { State.reset with len := 15#64 }) =
      some (0x0108#16, 0#64, 0#16) := by decide +kernel
/-- Z2: a match. -/
theorem test_verify : view State.status (exec .verify (withPacket v2Regs hello)) = some 0x4040#16 := by decide +kernel
/-- Z2: the corrupted byte; `CSUM` is kept. -/
theorem test_verify_mismatch :
    view (fun t => (t.sum, t.csum, t.status)) (exec .verify (withPacket v2Regs (hello.set 0 0x49#8))) =
      some (0xaac7d054#64, 0x85e3#16, 0x4000#16) := by decide +kernel
/-- P8, the `ENC`. -/
theorem test_enc :
    view (fun t => (t.pay, t.csum, t.sum, t.status)) (exec .enc (withPacket v2Regs hello)) =
      some (holding hfnoo, 0x63df#16, 0xc9c8d257#64, 0x5000#16) := by decide +kernel
/-- X9b. -/
theorem test_enc_badKey : view State.status (exec .enc State.reset) = some 0x0608#16 := by decide +kernel
/-- P8, the `DEC` (operation register 1). -/
theorem test_dec :
    view (fun t => (t.csum, t.sum, t.status)) (exec .dec (withPacket { v2Regs with op := 1#16 } hfnoo)) =
      some (0x65e2#16, 0x10000c9c7d054#64, 0x5000#16) := by decide +kernel
/-- R106's example; the link stays open. -/
theorem test_send :
    view (fun t => (t.txlog, t.status)) (exec .send (accepting (withPacket v2Regs hello))) = some (v2, 0x4000#16) := by
  decide +kernel
/-- R58: a failed write sends a proper part. -/
theorem test_send_fails :
    view (fun t => (t.txlog, t.status)) (exec .send { withPacket v2Regs hello with txPlan := [.fail 99] }) =
      some (v2.take 20, 0x0708#16) := by decide +kernel
/-- P1. -/
theorem test_serve :
    view (fun t => (t.txlog, t.pay, t.status)) (exec .serve (accepting (delivered v2))) =
      some (v2Response, holding hfnoo, 0x1047#16) := by decide +kernel
/-- X7, and R58: `SERVE` holds in `SENDING` while the LINK does not answer. -/
theorem test_serve_send_outcomes :
    view (fun t => (t.txlog, t.status)) (exec .serve { delivered v2 with txPlan := [.fail 7] }) =
      some (v2Response.take 7, 0x1748#16) ∧
    view (fun t => (t.csum, t.txlog, t.status)) (exec .serve (delivered v2)) = some (0x63df#16, [], 0x5076#16) := by
  decide +kernel
/-- P1 from the fetched header on. -/
theorem test_pktEncrypt :
    view (fun t => (t.txlog, t.status)) (exec (.pktEncrypt 0x85e3#16 abcd 21#64) (accepting (awaiting (delivered hello)))) =
      some (v2Response, 0x1047#16) := by decide +kernel
/-- V2c and V2d from the fetched header on. -/
theorem test_pktDecrypt :
    view (fun t => (t.csum, t.status))
      (exec (.pktDecrypt 0x63de#16 abcd 21#64) (accepting (awaiting (delivered hfnoo)))) =
      some (0x65e2#16, 0x1047#16) := by decide +kernel

/-! ### Host accesses, phases and fetch -/

/-- H1, H4, H5, H7. -/
theorem test_host_errors :
    view State.status (hostAccess (.regWrite 4 0x09#64) State.reset) = some 0x4080#16 ∧
    view State.status (hostAccess (.payWrite 10485760 0#8) State.reset) = some 0x4080#16 ∧
    view State.status (hostAccess (.regWrite 0 1#64) heldState) = some 0x4091#16 ∧
    view State.status (hostAccess (.regWrite 4 0x03#64) closedState) = some 0x10c7#16 := by decide +kernel
/-- R23: "abcd" reads as 0x61626364. -/
theorem test_key_register :
    view State.key (hostAccess (.regWrite 2 0x61626364#64) State.reset) = some abcd ∧
    view State.reads (hostAccess (.regRead 2) { State.reset with key := abcd }) = some [.word 0x61626364#32] := by
  decide +kernel
/-- P4, P6, X9: the verdicts of `SERVE`, in order. -/
theorem test_verdicts :
    verdict .be v2Regs hello = none ∧ verdict .be v2Regs (hello.set 0 0x49#8) = some .badSum ∧
    verdict .be { v2Regs with op := 2#16 } hello = some .badSum ∧
    verdict .be { v2Regs with op := 2#16, csum := 0x85e1#16 } hello = some .badOp ∧
    verdict .be { op := 0#16, csum := 0x32be#16, key := { abcd with k0 := 0x41#8, k2 := 0x43#8, k1 := 0x62#8 }, len := 18#64 }
      [0x48#8, 0x69#8] = some .badKey := by decide +kernel
/-- A command word and a packet word, placed and run. -/
theorem test_placed_words :
    view State.csum (step (State.reset.withFetchWord 8 0x03)) = some 0xffef#16 ∧
    view State.len (step (State.reset.withFetchWord 128 0x000085e3616263640000000000000015)) = some 21#64 := by
  decide +kernel

/-! ### Witnesses: for each statement with hypotheses, a state and operands that meet them -/

/-- V2's packet in the registers and in `PAY`. -/
def v2State : State := withPacket v2Regs hello

/-- `s` with one turn to come. -/
def turn (t : Turn) (s : State) : State := { s with agenda := [t] }

theorem witness_StepRunsDecodedInstruction_command :
    (turn (.host (.regWrite 4 0x08#64)) State.reset).agenda = .host (.regWrite 4 0x08#64) :: [] ∧
    decode (turn (.host (.regWrite 4 0x08#64)) State.reset).params.hostOrder .cmd [(0x08#64).setWidth 8] = .ok .serve :=
  ⟨rfl, rfl⟩

theorem witness_StepRunsDecodedInstruction_packet :
    let s := awaiting (delivered v2)
    s.agenda = [] ∧ (turn .engine s).agenda = .engine :: [] ∧ s.state = .receiving ∧ s.seq = true ∧
    s.hdrTaken = false ∧ s.conn = true ∧ 16 ≤ s.rxq.length ∧
    decode s.params.hostOrder .pkt (s.rxq.take 16) = .ok (.pktEncrypt 0x85e3#16 abcd 21#64) :=
  ⟨rfl, rfl, rfl, rfl, rfl, rfl, by decide, rfl⟩

theorem witness_PlacedWordIsRun :
    decodeTableWord 8 0x08 = some .serve ∧ State.reset.params.hostOrder = .be ∧
    decodeTableWord 128 0x000063de616263640000000000000015 = some (.pktEncrypt 0x63de#16 abcd 21#64) := by decide

theorem witness_StepKeepsInvariant : closedState.Inv ∧ step closedState = .next closedState :=
  ⟨⟨by decide, by decide, by decide, by decide, by decide, nofun, nofun, nofun, by decide, by decide,
    by decide, by decide, by decide⟩, rfl⟩

theorem witness_MergedPaceIsPhasedTurns :
    ∃ t u, exec .serve { accepting (delivered v2) with pace := .merged } = .next t ∧
      exec .serve { accepting (delivered v2) with pace := .phased } = .next u := ⟨_, _, rfl, rfl⟩

theorem witness_EngineFollowsTransitionTable :
    (∃ t, engineStep (awaiting (delivered v2)) = some t) ∧ ∃ t, engineStep { v2State with state := .verifying } = some t :=
  ⟨⟨_, rfl⟩, ⟨_, rfl⟩⟩

theorem witness_ParametersNeverChange : ∃ t, step (turn .reset closedState) = .next t := ⟨_, rfl⟩

theorem witness_TerminalLeftOnlyByClearOrReset :
    let s := turn (.host (.regWrite 4 0x08#64)) closedState
    s.state.terminal = true ∧ (∃ t, step s = .next t) ∧ s.agenda.head? ≠ some .reset ∧
    ∀ v, s.agenda.head? = some (.host (.regWrite 4 v)) → v.setWidth 8 ≠ 1#8 := by
  refine ⟨rfl, ⟨_, rfl⟩, by decide, ?_⟩
  intro v h
  simp only [turn, List.head?_cons, Option.some.injEq, Turn.host.injEq, Access.regWrite.injEq, true_and] at h
  subst h
  decide

theorem witness_HostErrorIsSticky :
    let s := turn (.host (.regWrite 4 0x01#64)) { heldState with herr := true }
    s.herr = true ∧ (∃ t, step s = .next t) ∧ s.agenda.head? ≠ some .reset ∧
    ∀ v, s.agenda.head? = some (.host (.regWrite 4 v)) → v.setWidth 8 = 1#8 → s.busy = true :=
  ⟨rfl, ⟨_, rfl⟩, by decide, fun _ _ _ => rfl⟩

theorem witness_OnlyResetReopensLink :
    closedState.conn = false ∧ ∃ t, step (turn .reset closedState) = .next t ∧ t.conn = true := ⟨rfl, _, rfl, rfl⟩

theorem witness_TransmitLogOnlyGrows :
    let s := turn .engine { delivered [] with state := .receiving, rxeof := true }
    s.agenda.head? ≠ some .reset ∧ ∃ t, step s = .next t ∧ t.state = .rejected ∧ t.err ≠ .txFail :=
  ⟨by decide, _, rfl, rfl, by decide⟩

theorem witness_HostAndLinkTurns :
    (turn (.host (.payRead 0)) v2State).agenda = .host (.payRead 0) :: [] ∧
    (turn (.link (.rx hello)) heldState).agenda = .link (.rx hello) :: [] ∧ heldState.rxeof = false ∧
    ({ heldState with rxeof := true } : State).rxeof = true ∧
    (turn (.link .eof) heldState).agenda = .link .eof :: [] ∧
    (turn (.link (.tx .ok)) heldState).agenda = .link (.tx .ok) :: [] := ⟨rfl, rfl, rfl, rfl, rfl, rfl⟩

theorem witness_ResetGivesTableValues :
    let s := turn .reset heldState
    let s' := turn .reset (withPacket v2Regs hello)
    s.agenda = .reset :: [] ∧ s'.agenda = .reset :: [] ∧ s.params = s'.params ∧ s.pace = s'.pace ∧
    s.reads = s'.reads ∧ s.draws = s'.draws := ⟨rfl, rfl, rfl, rfl, rfl, rfl⟩

theorem witness_RegisterReadReturns :
    State.reset.busy = false ∧ ((6 = 0 ∨ 6 = 1 ∨ 6 = 2 ∨ 6 = 3 ∨ 6 = 6) ∧ heldState.busy = true ∨ 7 ≤ 6) ∧
    ((7 = 0 ∨ 7 = 1 ∨ 7 = 2 ∨ 7 = 3 ∨ 7 = 6) ∧ State.reset.busy = true ∨ 7 ≤ 7) := by decide

theorem witness_RegisterWriteStores :
    State.reset.busy = false ∧ decodeCommand ((0x08#64).extractLsb' 0 8) = .ok .serve ∧
    ((7 = 5 ∨ 7 = 6 ∨ 7 ≤ 7) ∨ 7 ≤ 3 ∧ State.reset.busy = true) ∧
    ((3 = 5 ∨ 3 = 6 ∨ 7 ≤ 3) ∨ 3 ≤ 3 ∧ heldState.busy = true) := ⟨rfl, rfl, by decide, by decide⟩

theorem witness_PayloadAccess :
    4 < v2State.params.maxPayload ∧ v2State.busy = false ∧ v2State.pay.read 4 = some 0x6f#8 ∧
    10485759 < v2State.params.maxPayload ∧ (v2State.params.maxPayload ≤ 10485760 ∨ v2State.busy = true) ∧
    (heldState.params.maxPayload ≤ 0 ∨ heldState.busy = true) := by decide

theorem witness_HostErrorsAreTheList :
    State.reset.herr = false ∧ (∃ t, hostAccess (.regWrite 4 0x09#64) State.reset = .next t) ∧
    ∃ t, hostAccess (.regRead 7) State.reset = .next t := ⟨rfl, ⟨_, rfl⟩, _, rfl⟩

theorem witness_BusyHostCannotDisturb :
    heldState.busy = true ∧ Access.regRead 3 ≠ .regRead 4 ∧ Access.regRead 3 ≠ .regRead 5 := by decide

theorem witness_CommandAcceptance :
    heldState.busy = true ∧ 8 < ((0x09#64).extractLsb' 0 8).toNat ∧ closedState.busy = false ∧
    (0x00#64).extractLsb' 0 8 = 0#8 ∧ (0x01#64).extractLsb' 0 8 = 1#8 ∧
    closedState.state.terminal = true ∧ (0x02#64).extractLsb' 0 8 ≠ 0#8 ∧ (0x02#64).extractLsb' 0 8 ≠ 1#8 ∧
    State.reset.state = .idle ∧ ((0x08#64).extractLsb' 0 8).toNat ≤ 8 := by decide

theorem witness_NopDoesNothing : closedState.busy = false ∧ heldState.busy = true := by decide

theorem witness_ClearEmptiesPacket : closedState.busy = false ∧ heldState.busy = true := by decide

/-- The hypotheses that the commands in `IDLE` share, at both ends of the range of lengths. -/
theorem witness_idle_commands :
    (idleNow v2State ∧ v2State.pace = .merged ∧ lengthOk v2State) ∧
    lengthOk { State.reset with len := 16#64 } ∧ lengthOk { State.reset with len := 0xa00010#64 } := by
  unfold idleNow lengthOk
  decide

theorem witness_GenStoresChecksum : idleNow v2State ∧ v2State.pace = .merged ∧ lengthOk v2State :=
  witness_idle_commands.1

theorem witness_VerifySetsVok : idleNow v2State ∧ v2State.pace = .merged ∧ lengthOk v2State :=
  witness_idle_commands.1

theorem witness_payloadWritten : payloadWritten v2State := by
  unfold payloadWritten
  decide

theorem witness_GenThenVerifyMatches :
    idleNow v2State ∧ v2State.pace = .merged ∧ lengthOk v2State ∧ payloadWritten v2State :=
  ⟨witness_idle_commands.1.1, rfl, witness_idle_commands.1.2.2, witness_payloadWritten⟩

theorem witness_TransformCommandsResult :
    idleNow v2State ∧ v2State.pace = .merged ∧ lengthOk v2State ∧ keyValid v2State.key = true :=
  ⟨witness_idle_commands.1.1, rfl, witness_idle_commands.1.2.2, rfl⟩

theorem witness_RecvLoadsPacket :
    let s := delivered (v2 ++ [0xde#8, 0xad#8])
    (s.state = .idle ∧ s.seq = false) ∧ s.pace = .merged ∧ s.conn = true ∧ v2Regs.len.toNat = 16 + hello.length ∧
    hello.length ≤ s.params.maxPayload ∧
    s.rxq = headerImage s.params.hostOrder v2Regs ++ hello ++ [0xde#8, 0xad#8] := by decide

theorem witness_SendOutcomes :
    (idleNow v2State ∧ v2State.pace = .merged ∧ lengthOk v2State) ∧ v2State.conn = true ∧ v2State.txPlan = [] ∧
    (accepting v2State).txPlan = .ok :: [] ∧ ({ v2State with txPlan := [.fail 0] } : State).txPlan = .fail 0 :: [] ∧
    ({ v2State with conn := false } : State).conn = false := ⟨witness_idle_commands.1, rfl, rfl, rfl, rfl, rfl⟩

theorem witness_ServeAnswersPacket :
    let s := accepting (delivered (v2 ++ [0xde#8]))
    s.state = .idle ∧ s.pace = .merged ∧ s.conn = true ∧ v2Regs.len.toNat = 16 + hello.length ∧
    hello.length ≤ s.params.maxPayload ∧ operation v2Regs.op = some .encrypt ∧
    verdict s.params.hostOrder v2Regs hello = none ∧
    s.rxq = headerImage s.params.hostOrder v2Regs ++ hello ++ [0xde#8] ∧ s.txPlan = .ok :: [] ∧
    ({ s with txPlan := [.fail 7] } : State).txPlan = .fail 7 :: [] ∧ ({ s with txPlan := [] } : State).txPlan = [] := by
  decide +kernel

/-- A packet with an empty payload is served as well (R185). -/
theorem witness_ServeAnswersPacket_empty :
    let h : Header := { op := 1#16, csum := 0x3b28#16, key := abcd, len := 16#64 }
    h.len.toNat = 16 + ([] : Bytes).length ∧ operation h.op = some .decrypt ∧ verdict .be h [] = none := by decide +kernel

theorem witness_PacketOperationsServe :
    let s := accepting (awaiting (delivered hello))
    s.state = .receiving ∧ s.seq = true ∧ s.hdrTaken = false ∧ s.conn = true ∧ s.pace = .merged ∧
    (21#64).toNat = 16 + hello.length ∧ hello.length ≤ s.params.maxPayload ∧ s.rxq = hello ++ [] ∧ s.txPlan = .ok :: [] ∧
    verdict s.params.hostOrder { op := 0#16, csum := 0x85e3#16, key := abcd, len := 21#64 } hello = none ∧
    verdict s.params.hostOrder { op := 1#16, csum := 0x63de#16, key := abcd, len := 21#64 } hfnoo = none := by
  decide +kernel

theorem witness_PhasedCommandOpensItsPhase :
    let s : State := { v2State with pace := .phased }
    idleNow s ∧ s.pace = .phased ∧ lengthOk s ∧ keyValid s.key = true :=
  ⟨witness_idle_commands.1.1, rfl, witness_idle_commands.1.2.2, rfl⟩

theorem witness_RejectionEntry :
    State.reset.state ≠ .rejected ∧
    ∃ t, step (turn (.host (.regWrite 4 0x05#64)) State.reset) = .next t ∧ t.state = .rejected :=
  ⟨by decide, _, rfl, rfl⟩

theorem witness_LengthCheckRejects :
    idleNow State.reset ∧ (Instr.send = .gen ∨ Instr.send = .verify ∨ Instr.send = .enc ∨ Instr.send = .dec ∨ Instr.send = .send) ∧
    (15#64).toNat < 16 ∧ 16 ≤ (0xa00011#64).toNat ∧ State.reset.params.maxPayload < (0xa00011#64).toNat - 16 ∧
    16 ≤ (0xa00010#64).toNat ∧ (0xa00010#64).toNat - 16 ≤ State.reset.params.maxPayload := by
  unfold idleNow
  decide

theorem witness_BadKeyRejects :
    idleNow State.reset ∧ (Instr.dec = .enc ∨ Instr.dec = .dec) ∧ lengthOk State.reset ∧
    ¬(0x61 ≤ State.reset.key.k0.toNat ∧ State.reset.key.k0.toNat ≤ 0x7A ∧ 0x61 ≤ State.reset.key.k1.toNat ∧
      State.reset.key.k1.toNat ≤ 0x7A ∧ 0x61 ≤ State.reset.key.k2.toNat ∧ State.reset.key.k2.toNat ≤ 0x7A ∧
      0x61 ≤ State.reset.key.k3.toNat ∧ State.reset.key.k3.toNat ≤ 0x7A) := by
  unfold idleNow lengthOk
  decide

/-- X5c, X5b, X1, X3 and X5, one for each point of failure. -/
theorem witness_FailedReceiveLeaves :
    let eof (bs : Bytes) : State := { delivered bs with rxeof := true }
    idleNow (eof []) ∧ (eof []).pace = .merged ∧ ({ eof [] with conn := false } : State).conn = false ∧
    (eof (v2.take 15)).conn = true ∧ (eof (v2.take 15)).rxq.length < 16 ∧ (eof (v2.take 15)).rxeof = true ∧
    v2Header ++ hello.take 3 = headerImage .be v2Regs ++ hello.take 3 ∧ (eof []).params.hostOrder = .be ∧
    ({ v2Regs with len := 15#64 } : Header).len.toNat < 16 ∧
    (16 ≤ (0xa00011#64).toNat ∧ (eof []).params.maxPayload < (0xa00011#64).toNat - 16) ∧
    16 ≤ v2Regs.len.toNat ∧ v2Regs.len.toNat - 16 ≤ (eof []).params.maxPayload ∧
    (hello.take 3).length < v2Regs.len.toNat - 16 := by
  unfold idleNow
  decide

/-- Each case of the two receive steps. -/
theorem witness_ReceiveStepOutcomes :
    let s (bs : Bytes) : State := { delivered bs with state := .receiving }
    let u (bs : Bytes) : State := { s bs with hdrTaken := true, len := 21#64 }
    (s []).state = .receiving ∧ (s []).hdrTaken = false ∧ (s []).conn = true ∧ 16 ≤ (s v2Header).rxq.length ∧
    (s (v2.take 15)).rxq.length < 16 ∧ (s []).rxeof = false ∧ ({ s [] with rxeof := true } : State).rxeof = true ∧
    ({ s [] with conn := false } : State).conn = false ∧ (u []).hdrTaken = true ∧
    (u hello).payloadSize ≤ (u hello).rxq.length ∧ (u (hello.take 4)).rxq.length < (u (hello.take 4)).payloadSize := by
  decide

/-- The same, with the whole invariant, for a receive held between its two steps. -/
theorem witness_ReceiveStepOutcomes_inv :
    ({ delivered (hello.take 4) with state := .receiving, hdrTaken := true, len := 21#64, rxeof := true } : State).Inv :=
  ⟨by decide, by decide, by decide, by decide, by decide, fun _ => ⟨rfl, by unfold lengthOk; decide⟩, fun _ => rfl, nofun,
    by decide, by decide, by decide, by decide, by decide⟩

/-- P4's packet: the checksum is wrong. -/
theorem witness_ServeRejectsInOrder :
    let s := delivered (v2.set 16 0x49#8)
    s.state = .idle ∧ s.pace = .merged ∧ s.conn = true ∧ v2Regs.len.toNat = 16 + (hello.set 0 0x49#8).length ∧
    (hello.set 0 0x49#8).length ≤ s.params.maxPayload ∧
    s.rxq = headerImage s.params.hostOrder v2Regs ++ hello.set 0 0x49#8 ++ [] ∧
    verdict s.params.hostOrder v2Regs (hello.set 0 0x49#8) = some .badSum := by decide +kernel

theorem witness_HeldEngineStays :
    let s := delivered (v2.take 15)
    let u := delivered (v2.take 20)
    idleNow s ∧ s.pace = .merged ∧ s.conn = true ∧ s.rxeof = false ∧ s.rxq.length < 16 ∧
    u.rxq = headerImage u.params.hostOrder v2Regs ++ hello.take 4 ∧ 16 ≤ v2Regs.len.toNat ∧
    v2Regs.len.toNat - 16 ≤ u.params.maxPayload ∧ (hello.take 4).length < v2Regs.len.toNat - 16 := by
  unfold idleNow
  decide

theorem witness_HeldEngineStays_released :
    let e : LinkEvent := .rx (v2.drop 10)
    heldState.busy = true ∧ engineStep heldState = none ∧ (turn (.link e) heldState).agenda.head? = some (.link e) ∧
    ∃ t, step (turn (.link e) heldState) = .next t ∧ engineStep t ≠ none :=
  ⟨rfl, rfl, rfl, _, rfl, nofun⟩

theorem witness_AccumulatorIsResidue : [1#64, 2#64].Perm [2#64, 1#64] := by decide

theorem witness_PiecesCoverImage : 16 ≤ v2Header.length ∧ 16 ≤ v2.length := by decide

theorem witness_ChecksumIsComplementedResidue :
    0 < ((imageWords .be v2).map BitVec.toNat).sum ∧ 16 ≤ v2Regs.len.toNat := by decide +kernel

theorem witness_EvenLengthIgnoresHostOrder : 16 ≤ v2Header.length ∧ v2Header.length % 2 = 0 := by decide

theorem witness_UnzeroedFieldSumsToZero :
    16 ≤ v2Regs.len.toNat ∧ v2Regs.csum = cksum .be (checksumImage .be v2Regs hello) := by decide +kernel

theorem witness_ByteChangeChangesChecksum : 16 ≤ v2.length ∧ 20 < v2.length ∧ v2[20]? ≠ some 0#8 := by decide

theorem witness_CorruptedPayloadIsDetected :
    idleNow v2State ∧ v2State.pace = .merged ∧ lengthOk v2State ∧ payloadWritten v2State ∧
    v2State.csum = cksum v2State.params.hostOrder (checksumImage v2State.params.hostOrder v2State.header v2State.payload) ∧
    4 < v2State.payloadSize ∧ v2State.pay.read 4 = some 0x6f#8 ∧ 0x6f#8 ≠ 0x6e#8 :=
  ⟨witness_idle_commands.1.1, rfl, witness_idle_commands.1.2.2, witness_payloadWritten, by decide +kernel, by decide,
    by decide, by decide⟩

theorem witness_EncryptByteValue :
    isLower 0x7a#8 = true ∧ isLetter 0x5a#8 = true ∧ isLetter 0x5b#8 = false := by decide

theorem witness_DecryptByteValue :
    isLower 0x61#8 = true ∧ isLetter 0x41#8 = true ∧ isLetter 0x60#8 = false := by decide

theorem witness_EncryptClosedForm : keyValid abcd = true ∧ hello[4]? = some 0x6f#8 := by decide

theorem witness_DecryptClosedForm : keyValid abcd = true ∧ hfnoo[0]? = some 0x68#8 := by decide

theorem witness_CipherRoundTrip : keyValid abcd = true := by decide

theorem witness_CipherShape :
    keyValid abcd = true ∧ hello[0]? = some 0x48#8 ∧ (transformPayload .encrypt hello abcd)[0]? = some 0x68#8 ∧
    isLetter 0x68#8 = true ∧ isUpper 0x48#8 = true ∧ isLetter 0x20#8 = false := by decide

theorem witness_ReceiveThenSendIsByteExact :
    let s := accepting (delivered (v2 ++ [0xde#8]))
    idleNow s ∧ s.pace = .merged ∧ s.conn = true ∧ 16 ≤ v2.length ∧ v2.length - 16 ≤ s.params.maxPayload ∧
    beNat (slice v2 8 8) = v2.length ∧ s.rxq = v2 ++ [0xde#8] ∧ s.txPlan = .ok :: [] := by
  unfold idleNow
  decide

end Sys2Proof.Tests
end

section
/-! The scope family, first part: whose turn a step is (R11), what the engine's steps can do, and that the parameters of
R5 are configuration, which no operation of the model writes (R5, R59). -/

namespace Sys2Proof.Machine

/-! ### The step is the turn of the agent listed next (R11) -/

theorem step_of_agenda_nil {s : State} (h : s.agenda = []) : step s = engineTurn s := by
  simp only [step, h]

theorem step_of_agenda_cons {s : State} {turn : Turn} {rest : List Turn} (h : s.agenda = turn :: rest) :
    step s = takeTurn turn { s with agenda := rest } := by
  simp only [step, h]

/-! ### Inversion: everything one of the engine's link steps can do -/

/-- The first receive step finds the link closed, takes 16 bytes, or finds the end of the stream (R57, R100). -/
theorem recvHeaderStep_cases {s t : State} (h : recvHeaderStep s = some t) :
    (s.conn = false ∧ t = reject .rxFail { s with vok := false }) ∨
      (s.conn = true ∧ 16 ≤ s.rxq.length ∧
        t = acceptHeader (parseHeader s.params.hostOrder (s.rxq.take 16)) { s with rxq := s.rxq.drop 16 }) ∨
      (s.conn = true ∧ s.rxq.length < 16 ∧ s.rxeof = true ∧
        t = reject .rxFail
          { s with rxq := s.rxq.drop (Config.lostBytes s.draws), draws := s.draws + 1, vok := false }) := by
  unfold recvHeaderStep Config.headerBytes at h
  by_cases hc : s.conn = true
  · rw [if_pos hc] at h
    rcases rxTake_cases 16 s with ⟨hl, e⟩ | ⟨hl, heof, e⟩ | ⟨_, _, e⟩ <;> rw [e] at h
    · exact .inr (.inl ⟨hc, hl, (Option.some.inj h).symm⟩)
    · exact .inr (.inr ⟨hc, hl, heof, (Option.some.inj h).symm⟩)
    · cases h
  · rw [if_neg hc] at h
    exact .inl ⟨Bool.eq_false_of_not_eq_true hc, (Option.some.inj h).symm⟩

/-- The second receive step takes the payload, or finds the end of the stream (R57, R100, R102). -/
theorem recvPayloadStep_cases {s t : State} (h : recvPayloadStep s = some t) :
    (s.payloadSize ≤ s.rxq.length ∧
        t = { s with
          rxq := s.rxq.drop s.payloadSize, pay := s.pay.writeBytes 0 (s.rxq.take s.payloadSize)
          hdrTaken := false, state := if s.seq then .verifying else .idle }) ∨
      (s.rxq.length < s.payloadSize ∧ s.rxeof = true ∧
        t = reject .rxFail
          { s with
            rxq := s.rxq.drop (Config.lostBytes s.draws), draws := s.draws + 1
            pay := s.pay.forgetBelow s.payloadSize }) := by
  unfold recvPayloadStep at h
  rcases rxTake_cases s.payloadSize s with ⟨hl, e⟩ | ⟨hl, heof, e⟩ | ⟨_, _, e⟩ <;> rw [e] at h
  · exact .inl ⟨hl, (Option.some.inj h).symm⟩
  · exact .inr ⟨hl, heof, (Option.some.inj h).symm⟩
  · cases h

/-- `SEND` never transmits an empty image: the header has 16 bytes (R72, R105). -/
theorem packetImage_ne_nil (s : State) : s.packetImage ≠ [] := by
  have hlen : 16 ≤ s.packetImage.length := by simp [State.packetImage, State.hdr]
  intro hnil
  simp [hnil] at hlen

/-- The `SENDING` step finds the link closed, sends the whole image, or fails before its last byte (R58, R105). -/
theorem sendStep_cases {s t : State} (h : sendStep s = some t) :
    (s.conn = false ∧ t = reject .txFail s) ∨
      (∃ plan, s.conn = true ∧ s.txPlan = .ok :: plan ∧
        t = afterSend { draw s with txlog := s.txlog ++ s.packetImage, txPlan := plan }) ∨
      (∃ p plan q, s.conn = true ∧ s.txPlan = .fail p :: plan ∧ q < s.packetImage.length ∧
        t = reject .txFail { draw s with txlog := s.txlog ++ s.packetImage.take q, txPlan := plan }) := by
  unfold sendStep at h
  by_cases hc : s.conn = true
  · rw [if_pos hc] at h
    rcases txPut_cases s.packetImage (draw s) (packetImage_ne_nil s) with
      ⟨plan, hp, e⟩ | ⟨p, plan, q, hp, hq, e⟩ | ⟨_, e⟩ <;> rw [e] at h
    · exact .inr (.inl ⟨plan, hc, hp, (Option.some.inj h).symm⟩)
    · exact .inr (.inr ⟨p, plan, q, hc, hp, hq, (Option.some.inj h).symm⟩)
    · cases h
  · rw [if_neg hc] at h
    exact .inl ⟨Bool.eq_false_of_not_eq_true hc, (Option.some.inj h).symm⟩

/-! ### The parameters under the shared operations -/

section
variable {run : State → State}

theorem acceptHousekeeping_params (hrun : ∀ u, (run u).params = u.params) (s : State) :
    (acceptHousekeeping s run).params = s.params := by
  rcases acceptHousekeeping_cases s run with ⟨_, e⟩ | ⟨_, e⟩ <;> simp [e, hrun]

theorem acceptCommand_params (hrun : ∀ u, (run u).params = u.params) (s : State) :
    (acceptCommand s run).params = s.params := by
  rcases acceptCommand_cases s run with ⟨_, e⟩ | ⟨_, e⟩ <;> simp [e, hrun]

theorem checked_params (check : State → Option Cause) (hrun : ∀ u, (run u).params = u.params) (s : State) :
    (checked check s run).params = s.params := by
  rcases checked_cases check s run with ⟨c, _, e⟩ | ⟨_, e⟩ <;> simp [e, hrun]

end

/-! ### The parameters under the engine -/

@[simp] theorem acceptHeader_params (h : Header) (s : State) : (acceptHeader h s).params = s.params :=
  checked_params checkLen (fun _ => by rfl) _

@[simp] theorem dispatch_params (s : State) : (dispatch s).params = s.params := by
  unfold dispatch
  cases operation s.op with
  | none => rfl
  | some d => exact checked_params checkKey (fun _ => by rfl) s

@[simp] theorem verifyStep_params (s : State) : (verifyStep s).params = s.params := by
  unfold verifyStep
  dsimp only
  split_ifs <;> simp

@[simp] theorem xformStep_params (d : Direction) (s : State) : (xformStep d s).params = s.params :=
  phaseXform_params d s

@[simp] theorem sumStep_params (s : State) : (sumStep s).params = s.params := phaseSum_params s

@[simp] theorem afterSend_params (s : State) : (afterSend s).params = s.params := by
  unfold afterSend
  split <;> rfl

theorem recvHeaderStep_params {s t : State} (h : recvHeaderStep s = some t) : t.params = s.params := by
  rcases recvHeaderStep_cases h with ⟨_, rfl⟩ | ⟨_, _, rfl⟩ | ⟨_, _, _, rfl⟩ <;> simp

theorem recvPayloadStep_params {s t : State} (h : recvPayloadStep s = some t) : t.params = s.params := by
  rcases recvPayloadStep_cases h with ⟨_, rfl⟩ | ⟨_, _, rfl⟩ <;> simp

theorem sendStep_params {s t : State} (h : sendStep s = some t) : t.params = s.params := by
  rcases sendStep_cases h with ⟨_, rfl⟩ | ⟨_, _, _, rfl⟩ | ⟨_, _, _, _, _, _, rfl⟩ <;> simp

theorem engineStep_params {s t : State} (h : engineStep s = some t) : t.params = s.params := by
  unfold engineStep at h
  cases hs : s.state with
  | idle | closed | rejected => simp [hs] at h
  | receiving =>
    simp only [hs] at h
    split at h
    · exact recvPayloadStep_params h
    · exact recvHeaderStep_params h
  | verifying | encrypting | decrypting | summing =>
    simp only [hs, Option.some.injEq] at h
    simp [← h]
  | sending =>
    simp only [hs] at h
    exact sendStep_params h

@[simp] theorem advance_params (s : State) : (advance s).params = s.params :=
  advance_keeps (P := fun u => u.params = s.params) (fun _ _ hu hstep => (engineStep_params hstep).trans hu) s rfl

@[simp] theorem engineRun_params (s : State) : (engineRun s).params = s.params :=
  engineRun_keeps (P := fun u => u.params = s.params) (fun _ _ hu hstep => (engineStep_params hstep).trans hu) s rfl

/-! ### The parameters under the instructions -/

theorem transformCommand_params (d : Direction) (s : State) : (transformCommand d s).params = s.params :=
  acceptCommand_params (fun u => checked_params checkLen (fun u => checked_params checkKey (fun _ => by simp) u) u) s

theorem servePacket_params (h : Header) (s : State) : (servePacket h s).params = s.params := by
  unfold servePacket
  split <;> simp

theorem exec_params {i : Instr} {s t : State} (h : exec i s = .next t) : t.params = s.params := by
  cases i with
  | nop => cases h; exact acceptHousekeeping_params (fun _ => rfl) s
  | clear => cases h; exact acceptHousekeeping_params clearPacket_params s
  | recv | serve => cases h; exact acceptCommand_params (fun _ => by simp) s
  | gen | verify | send =>
    cases h; exact acceptCommand_params (fun u => checked_params checkLen (fun _ => by simp) u) s
  | enc | dec => cases h; exact transformCommand_params _ s
  | pktEncrypt csum key len | pktDecrypt csum key len => cases h; exact servePacket_params _ s

/-! ### The parameters under the host's accesses -/

@[simp] theorem regRead_params (r : Nat) (s : State) : (regRead r s).params = s.params := by
  unfold regRead
  cases registerValue r s <;> dsimp only <;> split_ifs <;> simp

theorem writeRegister_params {r : Nat} {v : Word64} {s t : State} (h : writeRegister r v s = some t) :
    t.params = s.params := by
  unfold writeRegister at h
  split at h <;> cases h <;> rfl

theorem issueCommand_params {c : Byte} {s t : State} (h : issueCommand c s = .next t) : t.params = s.params := by
  unfold issueCommand at h
  cases hd : decodeCommand c with
  | ok i => rw [hd] at h; exact exec_params h
  | error _ => rw [hd] at h; cases h; rfl

theorem regWrite_params {r : Nat} {v : Word64} {s t : State} (h : regWrite r v s = .next t) :
    t.params = s.params := by
  unfold regWrite at h
  split at h
  · exact issueCommand_params h
  · cases hw : writeRegister r v s with
    | none => rw [hw] at h; cases h; rfl
    | some u =>
      rw [hw] at h
      cases h
      split
      · rfl
      · exact writeRegister_params hw

theorem payRead_params (a : Nat) (s : State) : (payRead a s).params = s.params := by
  unfold payRead
  split <;> rfl

theorem payWrite_params (a : Nat) (b : Byte) (s : State) : (payWrite a b s).params = s.params := by
  unfold payWrite
  split <;> rfl

theorem hostAccess_params {a : Access} {s t : State} (h : hostAccess a s = .next t) : t.params = s.params := by
  cases a with
  | regRead r => cases h; exact regRead_params r s
  | regWrite r v => exact regWrite_params h
  | payRead a => cases h; exact payRead_params a s
  | payWrite a b => cases h; exact payWrite_params a b s

/-! ### The parameters under every agent's turn -/

theorem linkStep_params (e : LinkEvent) (s : State) : (linkStep e s).params = s.params := by
  cases e with
  | rx bs => dsimp only [linkStep]; split <;> rfl
  | eof | tx answer => rfl

theorem waitStep_params (s : State) : (waitStep s).params = s.params := by
  unfold waitStep
  dsimp only
  split <;> simp

theorem engineTurn_params {s t : State} (h : engineTurn s = .next t) : t.params = s.params := by
  unfold engineTurn at h
  cases hf : fetchPacket s with
  | none => rw [hf] at h; cases h; exact engineRun_params s
  | some fetched =>
    obtain ⟨i, u⟩ := fetched
    obtain ⟨_, _, _, rfl⟩ := fetchPacket_some s u i hf
    rw [hf] at h
    exact exec_params (s := { s with rxq := s.rxq.drop Config.headerBytes }) h

theorem takeTurn_params {turn : Turn} {s t : State} (h : takeTurn turn s = .next t) : t.params = s.params := by
  cases turn with
  | host a => exact hostAccess_params h
  | wait => cases h; exact waitStep_params s
  | link e => cases h; exact linkStep_params e s
  | engine => exact engineTurn_params h
  | reset | setPace p => cases h; rfl

end Sys2Proof.Machine

namespace Sys2Proof.Proofs

open Sys2Proof.Machine

/-- Settles O13: whichever agent has the turn, it leaves the parameters as they were. -/
theorem parametersNeverChange : Obligations.ParametersNeverChange := by
  intro s t h
  cases hagenda : s.agenda with
  | nil =>
    rw [step_of_agenda_nil hagenda] at h
    exact engineTurn_params h
  | cons turn rest =>
    rw [step_of_agenda_cons hagenda] at h
    exact takeTurn_params (s := { s with agenda := rest }) h

end Sys2Proof.Proofs
end

section
/-! The scope family, second part: what a fetched word runs (R2, R31, R57, R71), and the turns of the host and the LINK. -/

namespace Sys2Proof.Machine

/-! ### What is fetched -/

theorem issueCommand_of_decode {c : Byte} {i : Instr} (h : decodeCommand c = .ok i) (s : State) :
    issueCommand c s = exec i s := by
  simp only [issueCommand, h]

/-- A host's turn that writes a command's code to `CMD` runs that command, with the turn used up (R31, R53). -/
theorem step_of_cmdWrite {s : State} {v : Word64} {rest : List Turn} {i : Instr}
    (hagenda : s.agenda = .host (.regWrite cmdNumber v) :: rest) (hdecode : decodeCommand (v.setWidth 8) = .ok i) :
    step s = exec i { s with agenda := rest } := by
  rw [step_of_agenda_cons hagenda]
  exact issueCommand_of_decode hdecode _

/-- `SERVE` fetches a packet operation once its sixteen bytes have arrived (R57, R74). -/
theorem fetchPacket_of_decode {s : State} {i : Instr} (hawaits : awaitsPacket s = true) (hlen : 16 ≤ s.rxq.length)
    (hdecode : decode s.params.hostOrder .pkt (s.rxq.take 16) = .ok i) :
    fetchPacket s = some (i, { s with rxq := s.rxq.drop 16 }) := by
  simp [fetchPacket, Config.headerBytes, hawaits, hlen, hdecode]

theorem engineTurn_of_decode {s : State} {i : Instr} (hawaits : awaitsPacket s = true) (hlen : 16 ≤ s.rxq.length)
    (hdecode : decode s.params.hostOrder .pkt (s.rxq.take 16) = .ok i) :
    engineTurn s = exec i { s with rxq := s.rxq.drop 16 } := by
  simp only [engineTurn, fetchPacket_of_decode hawaits hlen hdecode]

/-- A listed turn of the engine runs the packet operation that has arrived, with the turn and its bytes used up. -/
theorem step_of_packet {s : State} {rest : List Turn} {i : Instr} (hagenda : s.agenda = .engine :: rest)
    (hawaits : awaitsPacket s = true) (hlen : 16 ≤ s.rxq.length)
    (hdecode : decode s.params.hostOrder .pkt (s.rxq.take 16) = .ok i) :
    step s = exec i { s with agenda := rest, rxq := s.rxq.drop 16 } := by
  rw [step_of_agenda_cons hagenda]
  exact engineTurn_of_decode hawaits hlen hdecode

/-! ### What `withFetchWord` places -/

theorem toOption_eq_some_iff {ε α : Type} {x : Except ε α} {a : α} : x.toOption = some a ↔ x = .ok a := by
  cases x <;> simp [Except.toOption]

/-- A command word is the byte of its low eight bits, the one `placeCommand` makes the host write. -/
theorem decodeTableWord_command {w : Nat} {i : Instr} (h : decodeTableWord 8 w = some i) :
    decodeCommand ((BitVec.ofNat 64 (w % 256)).setWidth 8) = .ok i := by
  have hbyte : (BitVec.ofNat 64 (w % 256)).setWidth 8 = BitVec.ofNat 8 w := by
    apply BitVec.eq_of_toNat_eq
    simp only [BitVec.toNat_setWidth, BitVec.toNat_ofNat]
    omega
  rw [hbyte]
  exact toOption_eq_some_iff.mp h

/-- A packet word is sixteen bytes, which decode in the order of the hardware that the table is written for (R71). -/
theorem decodeTableWord_packet {w : Nat} {i : Instr} (h : decodeTableWord 128 w = some i) :
    decode .be .pkt (tableBytes 128 w) = .ok i :=
  toOption_eq_some_iff.mp h

theorem tableBytes_packet_length (w : Nat) : (tableBytes 128 w).length = 16 := Laws.bytesBe_length 16 w

theorem step_placeCommand {s : State} {w : Nat} {i : Instr} (h : decodeTableWord 8 w = some i) :
    step (placeCommand w s) = exec i s :=
  step_of_cmdWrite (s := placeCommand w s) rfl (decodeTableWord_command h)

/-- Placed header bytes that decode are fetched whole, and what was in `RXQ` before is left there. -/
theorem step_placePacket {s : State} {bs : Bytes} {i : Instr} (hlen : bs.length = 16)
    (hdecode : decode s.params.hostOrder .pkt bs = .ok i) :
    step (placePacket bs s) = exec i { s with state := .receiving, seq := true, hdrTaken := false, conn := true } := by
  have htake : (placePacket bs s).rxq.take 16 = bs := List.take_left' hlen
  have hdrop : (placePacket bs s).rxq.drop 16 = s.rxq := List.drop_left' hlen
  have harrived : 16 ≤ (placePacket bs s).rxq.length := by simp [placePacket, hlen]
  rw [step_of_packet rfl rfl harrived (by rw [htake]; exact hdecode), hdrop]
  rfl

end Sys2Proof.Machine

namespace Sys2Proof.Proofs

open Sys2Proof.Machine

/-- Settles O6: a placed command is the host's next write to `CMD`, a placed packet the next header fetched. -/
theorem placedWordIsRun : Obligations.PlacedWordIsRun := by
  refine ⟨fun s w i h => step_placeCommand h, fun s w i horder h => ?_⟩
  have hdecode : decode s.params.hostOrder .pkt (tableBytes 128 w) = .ok i := by
    rw [horder]
    exact decodeTableWord_packet h
  exact step_placePacket (tableBytes_packet_length w) hdecode

/-- Settles O18: the step is the turn of the agent listed, and `linkStep` gives each event of the LINK its effect. -/
theorem hostAndLinkTurns : Obligations.HostAndLinkTurns := by
  refine ⟨?host, ?rx, ?eof, ?tx⟩
  case host =>
    intro s a rest h
    exact step_of_agenda_cons h
  case rx =>
    intro s bs rest h
    rw [step_of_agenda_cons h]
    constructor
    · intro hopen
      simp [takeTurn, linkStep, hopen]
    · intro hended
      simp [takeTurn, linkStep, hended]
  case eof =>
    intro s rest h
    exact step_of_agenda_cons h
  case tx =>
    intro s answer rest h
    exact step_of_agenda_cons h

end Sys2Proof.Proofs
end

section
/-! The state family, first part: what a command, a host access and an engine step can leave, one inversion lemma each. -/

namespace Sys2Proof.Machine

/-! ### Inversion: everything an engine step can do -/

/-- The rest of the first receive step rejects the length, or goes on with a length that passes (R100, R182). -/
theorem acceptHeader_cases (h : Header) (s : State) :
    (∃ c, (c = .badLen ∨ c = .tooBig) ∧ acceptHeader h s = reject c (loadHeader h { s with vok := false })) ∨
      (lengthOk (loadHeader h { s with vok := false }) ∧
        acceptHeader h s = { loadHeader h { s with vok := false } with hdrTaken := true }) := by
  unfold acceptHeader checked
  rcases checkLen_cases (loadHeader h { s with vok := false }) with ⟨_, e⟩ | ⟨_, _, e⟩ | ⟨hlen, e⟩ <;> rw [e]
  · exact .inl ⟨.badLen, .inl rfl, rfl⟩
  · exact .inl ⟨.tooBig, .inr rfl, rfl⟩
  · exact .inr ⟨hlen, rfl⟩

/-- The dispatch on `OP` and the keyword's check reject in this order, or open the transform (R84, R186). -/
theorem dispatch_cases (s : State) :
    (operation s.op = none ∧ dispatch s = reject .badOp s) ∨
      (∃ d, operation s.op = some d ∧ keyValid s.key = false ∧ dispatch s = reject .badKey s) ∨
      (∃ d, operation s.op = some d ∧ keyValid s.key = true ∧ dispatch s = { s with state := d.state }) := by
  unfold dispatch checked checkKey
  cases operation s.op with
  | none => exact .inl ⟨rfl, rfl⟩
  | some d =>
    cases keyValid s.key with
    | false => exact .inr (.inl ⟨d, rfl, rfl, rfl⟩)
    | true => exact .inr (.inr ⟨d, rfl, rfl, rfl⟩)

/-- The `VERIFYING` step ends `VERIFY`; inside `SERVE` it rejects a mismatch, or dispatches (R131, R185). -/
theorem verifyStep_cases (s : State) :
    (s.seq = false ∧ verifyStep s = { phaseVerify s with state := .idle }) ∨
      (s.seq = true ∧ (phaseVerify s).vok = false ∧ verifyStep s = reject .badSum (phaseVerify s)) ∨
      (s.seq = true ∧ (phaseVerify s).vok = true ∧ verifyStep s = dispatch (phaseVerify s)) := by
  unfold verifyStep
  dsimp only
  rw [phaseVerify_seq]
  cases s.seq with
  | false => exact .inl ⟨rfl, rfl⟩
  | true =>
    cases (phaseVerify s).vok with
    | false => exact .inr (.inl ⟨rfl, rfl, rfl⟩)
    | true => exact .inr (.inr ⟨rfl, rfl, rfl⟩)

/-- The end of a send: `SERVE` closes the link, `SEND` leaves it (R106, R187). -/
theorem afterSend_cases (s : State) :
    (s.seq = true ∧ afterSend s = { closeLink s with state := .closed, seq := false }) ∨
      (s.seq = false ∧ afterSend s = { s with state := .idle }) := by
  unfold afterSend
  cases s.seq with
  | true => exact .inl ⟨rfl, rfl⟩
  | false => exact .inr ⟨rfl, rfl⟩

/-- Which step the engine takes, by `STATE` (R190). -/
theorem engineStep_cases {s t : State} (h : engineStep s = some t) :
    (s.state = .receiving ∧ s.hdrTaken = false ∧ recvHeaderStep s = some t) ∨
      (s.state = .receiving ∧ s.hdrTaken = true ∧ recvPayloadStep s = some t) ∨
      (s.state = .verifying ∧ t = verifyStep s) ∨
      (∃ d : Direction, s.state = d.state ∧ t = xformStep d s) ∨
      (s.state = .summing ∧ t = sumStep s) ∨
      (s.state = .sending ∧ sendStep s = some t) := by
  unfold engineStep at h
  cases hs : s.state with
  | idle | closed | rejected => simp [hs] at h
  | receiving =>
    cases hhdr : s.hdrTaken with
    | false => simp_all
    | true => simp_all
  | verifying => simp_all
  | encrypting => exact .inr (.inr (.inr (.inl ⟨.encrypt, rfl, by simp_all⟩)))
  | decrypting => exact .inr (.inr (.inr (.inl ⟨.decrypt, rfl, by simp_all⟩)))
  | summing => simp_all
  | sending => simp_all

/-! ### The engine's turn fetches nothing that its own step would not take -/

/-- A packet operation runs as `SERVE` would on the header it was decoded from (R74, R75). -/
theorem exec_of_decodeOperation {hdr : Header} {i : Instr} (h : decodeOperation hdr = .ok i) (s : State) :
    exec i s = .next (servePacket hdr s) := by
  obtain ⟨op, csum, key, len⟩ := hdr
  unfold decodeOperation at h
  split_ifs at h with hop hop
  · obtain rfl : op = 0#16 := hop
    cases h
    rfl
  · obtain rfl : op = 1#16 := hop
    cases h
    rfl

theorem exec_of_decode_packet {o : ByteOrder} {bs : Bytes} {i : Instr} (h : decode o .pkt bs = .ok i) (s : State) :
    exec i s = .next (servePacket (parseHeader o bs) s) := by
  unfold decode at h
  dsimp only at h
  split_ifs at h
  exact exec_of_decodeOperation h s

theorem awaitsPacket_iff (s : State) :
    awaitsPacket s = true ↔ s.state = .receiving ∧ s.seq = true ∧ s.hdrTaken = false ∧ s.conn = true := by
  simp [awaitsPacket, and_assoc]

/-- Where a header can be taken, the first receive step takes it (R57, R100). -/
theorem recvHeaderStep_of_arrived {s : State} (hconn : s.conn = true) (hlen : 16 ≤ s.rxq.length) :
    recvHeaderStep s =
      some (acceptHeader (parseHeader s.params.hostOrder (s.rxq.take 16)) { s with rxq := s.rxq.drop 16 }) := by
  simp [recvHeaderStep, rxTake, Config.headerBytes, hconn, hlen]

/-- Fetching a packet operation adds no behaviour to the engine's own steps (log 13). -/
theorem engineTurn_eq_engineRun (s : State) : engineTurn s = .next (engineRun s) := by
  unfold engineTurn
  cases hf : fetchPacket s with
  | none => rfl
  | some fetched =>
    obtain ⟨i, u⟩ := fetched
    obtain ⟨hawaits, hlen, hdecode, rfl⟩ := fetchPacket_some s u i hf
    obtain ⟨hstate, _, hhdr, hconn⟩ := (awaitsPacket_iff s).mp hawaits
    have hstep : engineStep s = some
        (acceptHeader (parseHeader s.params.hostOrder (s.rxq.take 16)) { s with rxq := s.rxq.drop 16 }) := by
      simp [engineStep, hstate, hhdr, recvHeaderStep_of_arrived hconn hlen]
    have hserve : servePacket (parseHeader s.params.hostOrder (s.rxq.take 16)) { s with rxq := s.rxq.drop 16 } =
        advance (acceptHeader (parseHeader s.params.hostOrder (s.rxq.take 16)) { s with rxq := s.rxq.drop 16 }) :=
      if_pos hawaits
    dsimp only
    rw [exec_of_decode_packet hdecode, engineRun, hstep]
    exact congrArg _ hserve

/-! ### Inversion: everything a command can leave -/

/-- How `s` stands after a command (R181 to R185): refused, a housekeeping command done, rejected by a check, or the
command's first phase opened and run as far as the pace lets it. -/
inductive CommandLeaves (s : State) : State → Prop where
  | refused : CommandLeaves s (hostError s)
  | unchanged (hbusy : s.busy = false) : CommandLeaves s s
  | cleared (hbusy : s.busy = false) : CommandLeaves s (clearPacket s)
  | rejected (c : Cause) (hidle : s.state = .idle) (hc : c = .badLen ∨ c = .tooBig ∨ c = .badKey) :
      CommandLeaves s (reject c s)
  | receives (hidle : s.state = .idle) : CommandLeaves s (advance (openReceive s))
  | serves (hidle : s.state = .idle) : CommandLeaves s (advance (openReceive { s with seq := true }))
  | walks (q : SeqState) (hidle : s.state = .idle) (hwalks : q.walks = true) (hlen : lengthOk s)
      (hkey : q = .encrypting ∨ q = .decrypting → keyValid s.key = true) :
      CommandLeaves s (advance { s with state := q })

/-- The checked commands: refused, rejected for the length, or run on a checked length (R181, R182). -/
theorem acceptChecked_leaves {s : State} {run : State → State}
    (hrun : s.state = .idle → lengthOk s → CommandLeaves s (run s)) :
    CommandLeaves s (acceptCommand s fun u => checked checkLen u run) := by
  rcases acceptCommand_cases s (fun u => checked checkLen u run) with ⟨_, e⟩ | ⟨hidle, e⟩ <;> rw [e]
  · exact .refused
  · unfold checked
    rcases checkLen_cases s with ⟨_, e⟩ | ⟨_, _, e⟩ | ⟨hlen, e⟩ <;> rw [e]
    · exact .rejected .badLen hidle (.inl rfl)
    · exact .rejected .tooBig hidle (.inr (.inl rfl))
    · exact hrun hidle hlen

theorem transformCommand_leaves (d : Direction) (s : State) : CommandLeaves s (transformCommand d s) := by
  refine acceptChecked_leaves fun hidle hlen => ?_
  unfold checked checkKey
  cases hkey : keyValid s.key with
  | false => exact .rejected .badKey hidle (.inr (.inr rfl))
  | true => exact .walks d.state hidle (by cases d <;> rfl) hlen (fun _ => hkey)

theorem exec_leaves {i : Instr} {s t : State} (hcmd : i.format = .cmd) (h : exec i s = .next t) :
    CommandLeaves s t := by
  cases i with
  | nop =>
    cases h
    rcases acceptHousekeeping_cases s (fun u => u) with ⟨_, e⟩ | ⟨hbusy, e⟩ <;> rw [e]
    · exact .refused
    · exact .unchanged hbusy
  | clear =>
    cases h
    rcases acceptHousekeeping_cases s clearPacket with ⟨_, e⟩ | ⟨hbusy, e⟩ <;> rw [e]
    · exact .refused
    · exact .cleared hbusy
  | recv =>
    cases h
    rcases acceptCommand_cases s (fun u => advance (openReceive u)) with ⟨_, e⟩ | ⟨hidle, e⟩ <;> rw [e]
    · exact .refused
    · exact .receives hidle
  | serve =>
    cases h
    rcases acceptCommand_cases s (fun u => advance (openReceive { u with seq := true })) with
      ⟨_, e⟩ | ⟨hidle, e⟩ <;> rw [e]
    · exact .refused
    · exact .serves hidle
  | gen => cases h; exact acceptChecked_leaves fun hidle hlen => .walks .summing hidle rfl hlen (by simp)
  | verify => cases h; exact acceptChecked_leaves fun hidle hlen => .walks .verifying hidle rfl hlen (by simp)
  | send => cases h; exact acceptChecked_leaves fun hidle hlen => .walks .sending hidle rfl hlen (by simp)
  | enc | dec => cases h; exact transformCommand_leaves _ s
  | pktEncrypt csum key len | pktDecrypt csum key len => cases hcmd

/-- A command code never decodes to a packet operation (R78, R79). -/
theorem format_of_decodeCommand {c : Byte} {i : Instr} (h : decodeCommand c = .ok i) : i.format = .cmd := by
  unfold decodeCommand at h
  split at h <;> cases h <;> rfl

theorem issueCommand_leaves {c : Byte} {s t : State} (h : issueCommand c s = .next t) : CommandLeaves s t := by
  unfold issueCommand at h
  cases hd : decodeCommand c with
  | ok i => rw [hd] at h; exact exec_leaves (format_of_decodeCommand hd) h
  | error _ => rw [hd] at h; cases h; exact .refused

/-! ### Inversion: everything a host access can leave -/

/-- How `s` stands after a host access (R52 to R55, R210). -/
inductive AccessLeaves (s : State) : State → Prop where
  | replied (v : Reply) : AccessLeaves s (reply v s)
  | payloadRead (v : Reply) : AccessLeaves s (draw (reply v s))
  | readRefused (shape : Word64 → Reply) : AccessLeaves s (refuseRead shape s)
  | payloadWritten (a : Nat) (b : Byte) (ha : a < s.params.maxPayload) (hbusy : s.busy = false) :
      AccessLeaves s { s with pay := s.pay.write a b }
  | registerWritten (h : Header) (hbusy : s.busy = false) : AccessLeaves s (loadHeader h s)
  | command {t : State} (h : CommandLeaves s t) : AccessLeaves s t

theorem regRead_leaves (r : Nat) (s : State) : AccessLeaves s (regRead r s) := by
  unfold regRead
  cases registerValue r s with
  | none =>
    dsimp only
    split_ifs
    · exact .replied _
    · exact .replied _
    · exact .readRefused _
  | some v =>
    dsimp only
    split_ifs
    · exact .replied _
    · exact .replied _
    · exact .readRefused _
    · exact .replied _

/-- A register write loads one of the four header registers and leaves the other three (R53). -/
theorem writeRegister_eq_loadHeader {r : Nat} {v : Word64} {s t : State} (h : writeRegister r v s = some t) :
    ∃ hdr, t = loadHeader hdr s := by
  unfold writeRegister at h
  split at h <;> cases h
  · exact ⟨{ s.header with op := v.setWidth 16 }, rfl⟩
  · exact ⟨{ s.header with csum := v.setWidth 16 }, rfl⟩
  · exact ⟨{ s.header with key := Keyword.ofWord (v.setWidth 32) }, rfl⟩
  · exact ⟨{ s.header with len := v }, rfl⟩

theorem regWrite_leaves {r : Nat} {v : Word64} {s t : State} (h : regWrite r v s = .next t) : AccessLeaves s t := by
  unfold regWrite at h
  split at h
  · exact .command (issueCommand_leaves h)
  · cases hw : writeRegister r v s with
    | none => rw [hw] at h; cases h; exact .command .refused
    | some u =>
      obtain ⟨hdr, rfl⟩ := writeRegister_eq_loadHeader hw
      rw [hw] at h
      cases h
      cases hbusy : s.busy with
      | true => exact .command .refused
      | false => exact .registerWritten hdr hbusy

theorem payloadAccess_iff (a : Nat) (s : State) :
    payloadAccess a s = true ↔ a < s.params.maxPayload ∧ s.busy = false := by
  simp [payloadAccess]

theorem hostAccess_leaves {a : Access} {s t : State} (h : hostAccess a s = .next t) : AccessLeaves s t := by
  cases a with
  | regRead r => cases h; exact regRead_leaves r s
  | regWrite r v => exact regWrite_leaves h
  | payRead a =>
    cases h
    unfold payRead
    split
    · exact .payloadRead _
    · exact .readRefused _
  | payWrite a b =>
    cases h
    unfold payWrite
    split
    · rename_i hgranted
      obtain ⟨ha, hbusy⟩ := (payloadAccess_iff a s).mp hgranted
      exact .payloadWritten a b ha hbusy
    · exact .command .refused

/-! ### Inversion: everything a step can leave -/

/-- `STATUS` is read in every state, busy or not (R32, R52). -/
theorem regRead_status (s : State) : regRead statusNumber s = reply (.half s.status) s := if_pos rfl

/-- How `s` stands after a turn, by the agent whose turn it was (R11, R86, R230). -/
inductive TurnLeaves (s : State) : Turn → State → Prop where
  | host (a : Access) {t : State} (h : AccessLeaves s t) : TurnLeaves s (.host a) t
  | wait (agenda : List Turn) : TurnLeaves s .wait { reply (.half s.status) s with agenda := agenda }
  | link (e : LinkEvent) : TurnLeaves s (.link e) (linkStep e s)
  | engine : TurnLeaves s .engine (engineRun s)
  | reset : TurnLeaves s .reset (resetEvent s)
  | setPace (p : Pace) : TurnLeaves s (.setPace p) { s with pace := p }

theorem waitStep_leaves (s : State) : TurnLeaves s .wait (waitStep s) := by
  unfold waitStep
  rw [regRead_status]
  dsimp only
  split
  · exact .wait _
  · exact .wait s.agenda

theorem takeTurn_leaves {turn : Turn} {s t : State} (h : takeTurn turn s = .next t) : TurnLeaves s turn t := by
  cases turn with
  | host a => exact .host a (hostAccess_leaves h)
  | wait => cases h; exact waitStep_leaves s
  | link e => cases h; exact .link e
  | engine =>
    have hrun : Host.Outcome.next (engineRun s) = .next t := (engineTurn_eq_engineRun s).symm.trans h
    cases hrun
    exact .engine
  | reset => cases h; exact .reset
  | setPace p => cases h; exact .setPace p

/-- A step is the turn of the agent listed first, or with none listed the engine's, the turn used up (R11, log 1). -/
theorem step_leaves {s t : State} (h : step s = .next t) :
    ∃ turn rest, TurnLeaves { s with agenda := rest } turn t ∧
      (s.agenda = turn :: rest ∨ (s.agenda = [] ∧ rest = [] ∧ turn = .engine)) := by
  cases hagenda : s.agenda with
  | nil =>
    rw [step_of_agenda_nil hagenda] at h
    have hs : { s with agenda := [] } = s := by rw [← hagenda]
    exact ⟨.engine, [], hs.symm ▸ takeTurn_leaves (turn := .engine) h, .inr ⟨rfl, rfl, rfl⟩⟩
  | cons turn rest =>
    rw [step_of_agenda_cons hagenda] at h
    exact ⟨turn, rest, takeTurn_leaves h, .inl rfl⟩

end Sys2Proof.Machine
end

section
/-! The state family, second part: nothing but reset sets `CONN` again (R37, R187). -/

namespace Sys2Proof.Machine

/-! ### No step of the engine sets `CONN` -/

theorem acceptHeader_conn (h : Header) {s : State} (hs : s.conn = false) : (acceptHeader h s).conn = false := by
  rcases acceptHeader_cases h s with ⟨c, _, e⟩ | ⟨_, e⟩ <;> simp [e, hs]

theorem dispatch_conn {s : State} (hs : s.conn = false) : (dispatch s).conn = false := by
  rcases dispatch_cases s with ⟨_, e⟩ | ⟨d, _, _, e⟩ | ⟨d, _, _, e⟩ <;> simp [e, hs]

theorem verifyStep_conn {s : State} (hs : s.conn = false) : (verifyStep s).conn = false := by
  have hphase : (phaseVerify s).conn = false := (phaseVerify_conn s).trans hs
  rcases verifyStep_cases s with ⟨_, e⟩ | ⟨_, _, e⟩ | ⟨_, _, e⟩ <;> rw [e]
  · exact hphase
  · exact reject_conn _ _
  · exact dispatch_conn hphase

theorem recvHeaderStep_conn {s t : State} (hs : s.conn = false) (h : recvHeaderStep s = some t) : t.conn = false := by
  rcases recvHeaderStep_cases h with ⟨_, rfl⟩ | ⟨hconn, _⟩ | ⟨hconn, _⟩
  · exact reject_conn _ _
  · simp [hs] at hconn
  · simp [hs] at hconn

theorem recvPayloadStep_conn {s t : State} (hs : s.conn = false) (h : recvPayloadStep s = some t) :
    t.conn = false := by
  rcases recvPayloadStep_cases h with ⟨_, rfl⟩ | ⟨_, _, rfl⟩
  · exact hs
  · exact reject_conn _ _

theorem sendStep_conn {s t : State} (hs : s.conn = false) (h : sendStep s = some t) : t.conn = false := by
  rcases sendStep_cases h with ⟨_, rfl⟩ | ⟨_, hconn, _⟩ | ⟨_, _, _, hconn, _⟩
  · exact reject_conn _ _
  · simp [hs] at hconn
  · simp [hs] at hconn

theorem engineStep_conn {s t : State} (hs : s.conn = false) (h : engineStep s = some t) : t.conn = false := by
  rcases engineStep_cases h with
    ⟨_, _, h⟩ | ⟨_, _, h⟩ | ⟨_, rfl⟩ | ⟨d, _, rfl⟩ | ⟨_, rfl⟩ | ⟨_, h⟩
  · exact recvHeaderStep_conn hs h
  · exact recvPayloadStep_conn hs h
  · exact verifyStep_conn hs
  · exact (phaseXform_conn d s).trans hs
  · exact (phaseSum_conn s).trans hs
  · exact sendStep_conn hs h

theorem advance_conn {s : State} (hs : s.conn = false) : (advance s).conn = false :=
  advance_keeps (P := fun u => u.conn = false) (fun _ _ => engineStep_conn) s hs

theorem engineRun_conn {s : State} (hs : s.conn = false) : (engineRun s).conn = false :=
  engineRun_keeps (P := fun u => u.conn = false) (fun _ _ => engineStep_conn) s hs

/-! ### No turn but the reset event sets `CONN` -/

theorem CommandLeaves.conn {s t : State} (h : CommandLeaves s t) (hs : s.conn = false) : t.conn = false := by
  cases h with
  | refused | unchanged | cleared => exact hs
  | rejected c => exact reject_conn c s
  | receives | serves | walks => exact advance_conn hs

theorem AccessLeaves.conn {s t : State} (h : AccessLeaves s t) (hs : s.conn = false) : t.conn = false := by
  cases h with
  | replied | payloadRead | readRefused | payloadWritten | registerWritten => exact hs
  | command h => exact h.conn hs

theorem linkStep_conn (e : LinkEvent) (s : State) : (linkStep e s).conn = s.conn := by
  cases e with
  | rx bs => dsimp only [linkStep]; split <;> rfl
  | eof | tx answer => rfl

theorem TurnLeaves.conn {s t : State} {turn : Turn} (h : TurnLeaves s turn t) (hturn : turn ≠ .reset)
    (hs : s.conn = false) : t.conn = false := by
  cases h with
  | host a h => exact h.conn hs
  | wait | setPace => exact hs
  | link e => exact (linkStep_conn e s).trans hs
  | engine => exact engineRun_conn hs
  | reset => exact absurd rfl hturn

end Sys2Proof.Machine

namespace Sys2Proof.Proofs

open Sys2Proof.Machine

/-- Settles O16: a turn that leaves `CONN = 1` where it found 0 can only be the reset event. -/
theorem onlyResetReopensLink : Obligations.OnlyResetReopensLink := by
  intro s t hclosed hstep hopen
  obtain ⟨turn, rest, hturn, hagenda⟩ := step_leaves hstep
  have hreset : turn = .reset := by
    by_contra hother
    simp [hturn.conn hother hclosed] at hopen
  rcases hagenda with hlisted | ⟨_, _, hengine⟩
  · simp [hlisted, hreset]
  · simp [hengine] at hreset

end Sys2Proof.Proofs
end

section
/-! The state family, third part: every step keeps the invariant. The invariant is built by one lemma for each kind of
value of `STATE`, which asks only for the clauses that say something there. -/

namespace Sys2Proof.Machine

/-! ### What the invariant says at each kind of `STATE` -/

/-- The part of the state that the invariant speaks of. -/
def State.guarded (s : State) :
    Half × Keyword × Word64 × Memory × SeqState × Bool × Bool × Cause × Bool × Bool × Params :=
  (s.op, s.key, s.len, s.pay, s.state, s.seq, s.vok, s.err, s.conn, s.hdrTaken, s.params)

theorem State.Inv.congr {s t : State} (h : s.Inv) (hsame : t.guarded = s.guarded) : t.Inv := by
  simp only [State.guarded, Prod.mk.injEq] at hsame
  obtain ⟨hop, hkey, hlen, hpay, hstate, hseq, hvok, herr, hconn, hhdr, hparams⟩ := hsame
  constructor <;> simp only [lengthOk, hop, hkey, hlen, hpay, hstate, hseq, hvok, herr, hconn, hhdr, hparams]
  exacts [h.canonical, h.inRange, h.cause, h.linkClosed, h.sequence, h.header, h.unverified, h.length, h.keyword,
    h.served, h.closedMatched, h.badSum, h.badOp]

/-- `PAY` is in canonical form and in range (R50, R51). -/
def payOk (s : State) : Prop := s.pay.wf ∧ s.pay.inRange s.params.maxPayload

theorem State.Inv.payOk {s : State} (h : s.Inv) : payOk s := ⟨h.canonical, h.inRange⟩

theorem payOk_congr {s t : State} (hpay : t.pay = s.pay) (hparams : t.params = s.params) (h : payOk s) : payOk t := by
  unfold payOk
  rw [hpay, hparams]
  exact h

theorem payOk_writeBytes {s t : State} {bs : Bytes} (h : payOk s) (hlen : bs.length ≤ s.params.maxPayload)
    (hpay : t.pay = s.pay.writeBytes 0 bs) (hparams : t.params = s.params) : payOk t := by
  obtain ⟨hwf, hrange⟩ := h
  unfold payOk
  rw [hpay, hparams]
  exact ⟨Memory.wf_writeBytes bs _ 0 hwf, Memory.inRange_writeBytes bs _ 0 _ (by omega) hrange⟩

theorem lengthOk_congr {s t : State} (hlen : t.len = s.len) (hparams : t.params = s.params) (h : lengthOk s) :
    lengthOk t := by
  unfold lengthOk
  rw [hlen, hparams]
  exact h

theorem payloadSize_le_of_lengthOk {s : State} (h : lengthOk s) : s.payloadSize ≤ s.params.maxPayload := h.2

theorem State.Inv.err_eq_none {s : State} (h : s.Inv) (hstate : s.state ≠ .rejected) : s.err = .none :=
  h.cause.mpr hstate

theorem State.Inv.seq_eq_false {s : State} (h : s.Inv) (hbusy : s.busy = false) : s.seq = false := by
  by_contra hseq
  have hrunning := h.sequence (Bool.eq_true_of_not_eq_false hseq)
  simp [State.busy, hrunning] at hbusy

theorem State.Inv.hdrTaken_eq_false {s : State} (h : s.Inv) (hstate : s.state ≠ .receiving) : s.hdrTaken = false := by
  by_contra hhdr
  obtain ⟨hreceiving, _⟩ := h.header (Bool.eq_true_of_not_eq_false hhdr)
  exact hstate hreceiving

theorem SeqState.busy_of_walks {q : SeqState} (h : q.walks = true) : q.busy = true := by
  cases q with
  | idle | receiving | closed | rejected => cases h
  | verifying | encrypting | decrypting | summing | sending => rfl

/-! ### The invariant at each kind of `STATE` -/

theorem inv_of_idle {s : State} (hstate : s.state = .idle) (hpay : payOk s) (herr : s.err = .none)
    (hseq : s.seq = false) (hhdr : s.hdrTaken = false) : s.Inv where
  canonical := hpay.1
  inRange := hpay.2
  cause := by simp [herr, hstate]
  linkClosed := by simp [hstate, SeqState.terminal]
  sequence := by simp [hseq]
  header := by simp [hhdr]
  unverified := by simp [hhdr]
  length := by simp [hstate, SeqState.walks]
  keyword := by simp [hstate]
  served := by simp [hseq]
  closedMatched := by simp [hstate]
  badSum := by simp [herr]
  badOp := by simp [herr]

theorem inv_of_receiving {s : State} (hstate : s.state = .receiving) (hpay : payOk s) (herr : s.err = .none)
    (hlen : s.hdrTaken = true → lengthOk s) (hvok : s.hdrTaken = true → s.vok = false) : s.Inv where
  canonical := hpay.1
  inRange := hpay.2
  cause := by simp [herr, hstate]
  linkClosed := by simp [hstate, SeqState.terminal]
  sequence := by simp [hstate, SeqState.busy]
  header := fun hhdr => ⟨hstate, hlen hhdr⟩
  unverified := hvok
  length := by simp [hstate, SeqState.walks]
  keyword := by simp [hstate]
  served := by simp [hstate, SeqState.afterVerify]
  closedMatched := by simp [hstate]
  badSum := by simp [herr]
  badOp := by simp [herr]

/-- What `SERVE` has established once it is past `VERIFYING` (R185, R191), without what the transforms add to it. -/
def servedOk (s : State) : Prop := s.vok = true ∧ keyValid s.key = true ∧ operation s.op ≠ none

theorem servedOk_congr {s t : State} (hvok : t.vok = s.vok) (hkey : t.key = s.key) (hop : t.op = s.op)
    (h : servedOk s) : servedOk t := by
  unfold servedOk
  rw [hvok, hkey, hop]
  exact h

theorem State.Inv.servedOk {s : State} (h : s.Inv) (hseq : s.seq = true) (hafter : s.state.afterVerify = true) :
    servedOk s := by
  obtain ⟨hvok, hkey, _, _, hop⟩ := h.served hseq hafter
  exact ⟨hvok, hkey, hop⟩

/-- `VERIFYING`, `SUMMING` and `SENDING`: the phases that walk the packet and transform nothing. -/
theorem inv_of_walking {s : State} (hstate : s.state = .verifying ∨ s.state = .summing ∨ s.state = .sending)
    (hpay : payOk s) (herr : s.err = .none) (hhdr : s.hdrTaken = false) (hlen : lengthOk s)
    (hserved : s.seq = true → s.state.afterVerify = true → servedOk s) : s.Inv where
  canonical := hpay.1
  inRange := hpay.2
  cause := by rcases hstate with e | e | e <;> simp [herr, e]
  linkClosed := by rcases hstate with e | e | e <;> simp [e, SeqState.terminal]
  sequence := by rcases hstate with e | e | e <;> simp [e, SeqState.busy]
  header := by simp [hhdr]
  unverified := by simp [hhdr]
  length := fun _ => hlen
  keyword := by rcases hstate with e | e | e <;> simp [e]
  served := fun hseq hafter => by
    obtain ⟨hvok, hkey, hop⟩ := hserved hseq hafter
    refine ⟨hvok, hkey, ?_, ?_, hop⟩ <;> rcases hstate with e | e | e <;> simp [e]
  closedMatched := by rcases hstate with e | e | e <;> simp [e]
  badSum := by simp [herr]
  badOp := by simp [herr]

/-- `ENCRYPTING` and `DECRYPTING`: inside `SERVE`, it was `OP` that selected the transform (R186). -/
theorem inv_of_transforming {s : State} {d : Direction} (hstate : s.state = d.state) (hpay : payOk s)
    (herr : s.err = .none) (hhdr : s.hdrTaken = false) (hlen : lengthOk s) (hkey : keyValid s.key = true)
    (hserved : s.seq = true → s.vok = true ∧ operation s.op = some d) : s.Inv where
  canonical := hpay.1
  inRange := hpay.2
  cause := by cases d <;> simp [herr, hstate, Direction.state]
  linkClosed := by cases d <;> simp [hstate, Direction.state, SeqState.terminal]
  sequence := by cases d <;> simp [hstate, Direction.state, SeqState.busy]
  header := by simp [hhdr]
  unverified := by simp [hhdr]
  length := fun _ => hlen
  keyword := fun _ => hkey
  served := fun hseq _ => by
    obtain ⟨hvok, hop⟩ := hserved hseq
    cases d <;> simp [hvok, hkey, hop, hstate, Direction.state]
  closedMatched := by cases d <;> simp [hstate, Direction.state]
  badSum := by simp [herr]
  badOp := by simp [herr]

theorem inv_of_closed {s : State} (hstate : s.state = .closed) (hpay : payOk s) (herr : s.err = .none)
    (hseq : s.seq = false) (hhdr : s.hdrTaken = false) (hconn : s.conn = false) (hvok : s.vok = true) : s.Inv where
  canonical := hpay.1
  inRange := hpay.2
  cause := by simp [herr, hstate]
  linkClosed := fun _ => hconn
  sequence := by simp [hseq]
  header := by simp [hhdr]
  unverified := by simp [hhdr]
  length := by simp [hstate, SeqState.walks]
  keyword := by simp [hstate]
  served := by simp [hseq]
  closedMatched := fun _ => hvok
  badSum := by simp [herr]
  badOp := by simp [herr]

/-- The rejection entry meets the invariant for any cause that agrees with `VOK` (R206, R207). -/
theorem reject_inv {c : Cause} {s : State} (hpay : payOk s) (hc : c ≠ .none) (hbadSum : c = .badSum → s.vok = false)
    (hbadOp : c = .badOp → s.vok = true) : (reject c s).Inv where
  canonical := hpay.1
  inRange := hpay.2
  cause := by simp [hc]
  linkClosed := by simp
  sequence := by simp
  header := by simp
  unverified := by simp
  length := by simp [SeqState.walks]
  keyword := by simp
  served := by simp
  closedMatched := by simp
  badSum := hbadSum
  badOp := hbadOp

/-- While the engine is not busy the host may load the header registers and store in `PAY`: no clause that is then in
force reads the packet. -/
theorem State.Inv.packet_of_not_busy {s : State} (h : s.Inv) (hquiet : ¬s.state.busy = true) (hdr : Header) {m : Memory}
    (hwf : m.wf) (hrange : m.inRange s.params.maxPayload) : (loadHeader hdr { s with pay := m }).Inv where
  canonical := hwf
  inRange := hrange
  cause := h.cause
  linkClosed := h.linkClosed
  sequence := h.sequence
  header := fun hhdr => by
    obtain ⟨hreceiving, _⟩ := h.header hhdr
    exact absurd (hreceiving ▸ rfl : s.state.busy = true) hquiet
  unverified := h.unverified
  length := fun hwalks => absurd (SeqState.busy_of_walks hwalks) hquiet
  keyword := fun hq => by
    have hwalks : s.state.walks = true := by rcases hq with (e : s.state = _) | (e : s.state = _) <;> rw [e] <;> rfl
    exact absurd (SeqState.busy_of_walks hwalks) hquiet
  served := fun hseq => absurd (h.sequence hseq) hquiet
  closedMatched := h.closedMatched
  badSum := h.badSum
  badOp := h.badOp

/-! ### The engine's steps keep the invariant -/

theorem acceptHeader_inv {s : State} (h : s.Inv) (hstate : s.state = .receiving) (hdr : Header) :
    (acceptHeader hdr s).Inv := by
  rcases acceptHeader_cases hdr s with ⟨c, hc, e⟩ | ⟨hlen, e⟩ <;> rw [e]
  · exact reject_inv h.payOk (by rcases hc with rfl | rfl <;> simp) (fun _ => rfl)
      (by rcases hc with rfl | rfl <;> simp)
  · exact inv_of_receiving hstate h.payOk (h.err_eq_none (by simp [hstate])) (fun _ => hlen) (fun _ => rfl)

theorem recvHeaderStep_inv {s t : State} (h : s.Inv) (hstate : s.state = .receiving)
    (hstep : recvHeaderStep s = some t) : t.Inv := by
  rcases recvHeaderStep_cases hstep with ⟨_, rfl⟩ | ⟨_, _, rfl⟩ | ⟨_, _, _, rfl⟩
  · exact reject_inv h.payOk (by simp) (by simp) (by simp)
  · have hrest : ({ s with rxq := s.rxq.drop 16 } : State).Inv := h.congr rfl
    exact acceptHeader_inv hrest hstate _
  · exact reject_inv h.payOk (by simp) (by simp) (by simp)

theorem recvPayloadStep_inv {s t : State} (h : s.Inv) (hstate : s.state = .receiving) (hhdr : s.hdrTaken = true)
    (hstep : recvPayloadStep s = some t) : t.Inv := by
  obtain ⟨_, hlen⟩ := h.header hhdr
  have herr : s.err = .none := h.err_eq_none (by simp [hstate])
  rcases recvPayloadStep_cases hstep with ⟨_, rfl⟩ | ⟨_, _, rfl⟩
  · have htaken : (s.rxq.take s.payloadSize).length ≤ s.params.maxPayload :=
      (List.length_take_le _ _).trans (payloadSize_le_of_lengthOk hlen)
    have hpay := fun t : State => payOk_writeBytes (t := t) h.payOk htaken
    cases hseq : s.seq with
    | true => exact inv_of_walking (.inl rfl) (hpay _ rfl rfl) herr rfl hlen (by simp [SeqState.afterVerify])
    | false => exact inv_of_idle rfl (hpay _ rfl rfl) herr rfl rfl
  · obtain ⟨hwf, hrange⟩ := h.payOk
    exact reject_inv ⟨Memory.wf_forgetBelow _ _ hwf, Memory.inRange_forgetBelow _ _ _ hrange⟩
      (by simp) (by simp) (by simp)

theorem dispatch_inv {s : State} (hpay : payOk s) (herr : s.err = .none) (hhdr : s.hdrTaken = false)
    (hlen : lengthOk s) (hvok : s.vok = true) : (dispatch s).Inv := by
  rcases dispatch_cases s with ⟨_, e⟩ | ⟨d, _, _, e⟩ | ⟨d, hop, hkey, e⟩ <;> rw [e]
  · exact reject_inv hpay (by simp) (by simp) (fun _ => hvok)
  · exact reject_inv hpay (by simp) (by simp) (by simp)
  · exact inv_of_transforming (d := d) rfl hpay herr hhdr hlen hkey (fun _ => ⟨hvok, hop⟩)

theorem verifyStep_inv {s : State} (h : s.Inv) (hstate : s.state = .verifying) : (verifyStep s).Inv := by
  have hpay : payOk (phaseVerify s) := payOk_congr (by simp) (by simp) h.payOk
  have hlen : lengthOk (phaseVerify s) :=
    lengthOk_congr (by simp) (by simp) (h.length (by simp [hstate, SeqState.walks]))
  have herr : (phaseVerify s).err = .none := (phaseVerify_err s).trans (h.err_eq_none (by simp [hstate]))
  have hhdr : (phaseVerify s).hdrTaken = false :=
    (phaseVerify_hdrTaken s).trans (h.hdrTaken_eq_false (by simp [hstate]))
  rcases verifyStep_cases s with ⟨hseq, e⟩ | ⟨_, hvok, e⟩ | ⟨_, hvok, e⟩ <;> rw [e]
  · exact inv_of_idle rfl hpay herr ((phaseVerify_seq s).trans hseq) hhdr
  · exact reject_inv hpay (by simp) (fun _ => hvok) (by simp)
  · exact dispatch_inv hpay herr hhdr hlen hvok

theorem walk_length (f : Byte → Byte → Byte × Bool) (key : Keyword) (j : BitVec 2) (bs : Bytes) :
    (walk f key j bs).1.length = bs.length := by
  induction bs generalizing j with
  | nil => rfl
  | cons c rest ih => simp [walk, ih]

theorem xformStep_inv {s : State} {d : Direction} (h : s.Inv) (hstate : s.state = d.state) :
    (xformStep d s).Inv := by
  have hlen : lengthOk s := h.length (by rw [hstate]; cases d <;> rfl)
  have hsize : (walk d.byte s.key 0#2 s.payload).1.length ≤ s.params.maxPayload := by
    rw [walk_length, payload_length]
    exact payloadSize_le_of_lengthOk hlen
  refine inv_of_walking (.inr (.inl rfl)) (payOk_writeBytes h.payOk hsize ?pay ?params) ?err ?hdr ?len ?served
  case pay => exact phaseXform_pay d s
  case params => exact phaseXform_params d s
  case err => exact (phaseXform_err d s).trans (h.err_eq_none (hstate ▸ by cases d <;> decide))
  case hdr => exact (phaseXform_hdrTaken d s).trans (h.hdrTaken_eq_false (hstate ▸ by cases d <;> decide))
  case len => exact lengthOk_congr (phaseXform_len d s) (phaseXform_params d s) hlen
  case served =>
    intro hseq _
    have hserved := h.servedOk ((phaseXform_seq d s).symm.trans hseq) (by rw [hstate]; cases d <;> rfl)
    exact servedOk_congr (phaseXform_vok d s) (phaseXform_key d s) (phaseXform_op d s) hserved

theorem sumStep_inv {s : State} (h : s.Inv) (hstate : s.state = .summing) : (sumStep s).Inv := by
  have hpay : payOk (phaseSum s) := payOk_congr (by simp) (by simp) h.payOk
  have herr : (phaseSum s).err = .none := (phaseSum_err s).trans (h.err_eq_none (by simp [hstate]))
  have hhdr : (phaseSum s).hdrTaken = false := (phaseSum_hdrTaken s).trans (h.hdrTaken_eq_false (by simp [hstate]))
  have hlen : lengthOk (phaseSum s) :=
    lengthOk_congr (by simp) (by simp) (h.length (by simp [hstate, SeqState.walks]))
  cases hseq : s.seq with
  | false =>
    exact inv_of_idle (by simp [sumStep, hseq]) hpay herr ((phaseSum_seq s).trans hseq) hhdr
  | true =>
    have hserved := h.servedOk hseq (by simp [hstate, SeqState.afterVerify])
    exact inv_of_walking (by simp [sumStep, hseq]) hpay herr hhdr hlen
      (fun _ _ => servedOk_congr (phaseSum_vok s) (phaseSum_key s) (phaseSum_op s) hserved)

theorem sendStep_inv {s t : State} (h : s.Inv) (hstate : s.state = .sending) (hstep : sendStep s = some t) :
    t.Inv := by
  have herr : s.err = .none := h.err_eq_none (by simp [hstate])
  have hhdr : s.hdrTaken = false := h.hdrTaken_eq_false (by simp [hstate])
  rcases sendStep_cases hstep with ⟨_, rfl⟩ | ⟨plan, _, _, rfl⟩ | ⟨p, plan, q, _, _, _, rfl⟩
  · exact reject_inv h.payOk (by simp) (by simp) (by simp)
  · rcases afterSend_cases { draw s with txlog := s.txlog ++ s.packetImage, txPlan := plan } with
      ⟨hseq, e⟩ | ⟨hseq, e⟩ <;> rw [e]
    · obtain ⟨hvok, _⟩ := h.servedOk hseq (by simp [hstate, SeqState.afterVerify])
      exact inv_of_closed rfl h.payOk herr rfl hhdr rfl hvok
    · exact inv_of_idle rfl h.payOk herr hseq hhdr
  · exact reject_inv h.payOk (by simp) (by simp) (by simp)

theorem engineStep_inv {s t : State} (h : s.Inv) (hstep : engineStep s = some t) : t.Inv := by
  rcases engineStep_cases hstep with
    ⟨hstate, _, hstep⟩ | ⟨hstate, hhdr, hstep⟩ | ⟨hstate, rfl⟩ | ⟨d, hstate, rfl⟩ | ⟨hstate, rfl⟩ | ⟨hstate, hstep⟩
  · exact recvHeaderStep_inv h hstate hstep
  · exact recvPayloadStep_inv h hstate hhdr hstep
  · exact verifyStep_inv h hstate
  · exact xformStep_inv h hstate
  · exact sumStep_inv h hstate
  · exact sendStep_inv h hstate hstep

theorem advance_inv {s : State} (h : s.Inv) : (advance s).Inv :=
  advance_keeps (fun _ _ => engineStep_inv) s h

theorem engineRun_inv {s : State} (h : s.Inv) : (engineRun s).Inv :=
  engineRun_keeps (fun _ _ => engineStep_inv) s h

/-! ### Every agent's turn keeps the invariant -/

theorem clearPacket_inv {s : State} (h : s.Inv) : (clearPacket s).Inv :=
  inv_of_idle rfl h.payOk rfl rfl rfl

theorem CommandLeaves.inv {s t : State} (hleaves : CommandLeaves s t) (h : s.Inv) : t.Inv := by
  cases hleaves with
  | refused => exact h.congr rfl
  | unchanged => exact h
  | cleared => exact clearPacket_inv h
  | rejected c _ hc =>
    refine reject_inv h.payOk ?_ ?_ ?_ <;> rcases hc with rfl | rfl | rfl <;> simp
  | receives hidle | serves hidle =>
    exact advance_inv <|
      inv_of_receiving rfl h.payOk (h.err_eq_none (by simp [hidle])) (by simp) (by simp)
  | walks q hidle hwalks hlen hkey =>
    have herr : s.err = .none := h.err_eq_none (by simp [hidle])
    have hhdr : s.hdrTaken = false := h.hdrTaken_eq_false (by simp [hidle])
    have hseq : s.seq = false := h.seq_eq_false (by simp [State.busy, hidle, SeqState.busy])
    apply advance_inv
    cases q with
    | verifying | summing | sending =>
      exact inv_of_walking (by simp) h.payOk herr hhdr hlen (by simp [hseq])
    | encrypting =>
      exact inv_of_transforming (d := .encrypt) rfl h.payOk herr hhdr hlen (hkey (.inl rfl)) (by simp [hseq])
    | decrypting =>
      exact inv_of_transforming (d := .decrypt) rfl h.payOk herr hhdr hlen (hkey (.inr rfl)) (by simp [hseq])
    | idle | receiving | closed | rejected => simp [SeqState.walks] at hwalks

theorem AccessLeaves.inv {s t : State} (hleaves : AccessLeaves s t) (h : s.Inv) : t.Inv := by
  cases hleaves with
  | replied | payloadRead | readRefused => exact h.congr rfl
  | payloadWritten a b ha hbusy =>
    exact h.packet_of_not_busy (ne_true_of_eq_false hbusy) s.header (Memory.wf_write _ a b h.canonical)
      (Memory.inRange_write _ a _ b ha h.inRange)
  | registerWritten hdr hbusy => exact h.packet_of_not_busy (ne_true_of_eq_false hbusy) hdr h.canonical h.inRange
  | command hleaves => exact hleaves.inv h

theorem linkStep_inv {s : State} (h : s.Inv) (e : LinkEvent) : (linkStep e s).Inv := by
  cases e with
  | rx bs =>
    dsimp only [linkStep]
    split
    · exact h
    · exact h.congr rfl
  | eof | tx answer => exact h.congr rfl

/-- The reset event meets the invariant whatever the block was doing (R231). -/
theorem resetEvent_inv (s : State) : (resetEvent s).Inv :=
  inv_of_idle rfl ⟨reset_pay_wf, by simp [resetEvent, State.reset]⟩ rfl rfl rfl

theorem TurnLeaves.inv {s t : State} {turn : Turn} (hleaves : TurnLeaves s turn t) (h : s.Inv) : t.Inv := by
  cases hleaves with
  | host a hleaves => exact hleaves.inv h
  | wait | setPace => exact h.congr rfl
  | link e => exact linkStep_inv h e
  | engine => exact engineRun_inv h
  | reset => exact resetEvent_inv s

end Sys2Proof.Machine

namespace Sys2Proof.Proofs

open Sys2Proof.Machine

/-- Settles O8: the turn is used up, which the invariant does not see, and every agent's turn keeps the invariant. -/
theorem stepKeepsInvariant : Obligations.StepKeepsInvariant := by
  intro s t h hstep
  obtain ⟨turn, rest, hturn, _⟩ := step_leaves hstep
  exact hturn.inv (h.congr rfl)

/-- Settles O9: the state right after reset is idle, with nothing in `PAY`. -/
theorem resetMeetsInvariant : Obligations.ResetMeetsInvariant :=
  resetEvent_inv State.reset

end Sys2Proof.Proofs
end

section
/-! The state family, fourth part: what the reset event leaves (R40, R231), and the view `STATUS` (R32). -/

namespace Sys2Proof.Machine

theorem step_of_reset {s : State} {rest : List Turn} (h : s.agenda = .reset :: rest) :
    step s = .next (resetEvent { s with agenda := rest }) :=
  step_of_agenda_cons h

theorem resetEvent_status (s : State) : (resetEvent s).status = 0x4000#16 := by
  have hfields : (resetEvent s).status = State.reset.status := by dsimp only [State.status, State.busy, resetEvent]
  rw [hfields]
  decide

/-! ### The fields of `STATUS` -/

/-- Bit `i` of `STATUS` as the concatenation of R32 has it: of the lowest field that reaches above `i`. -/
theorem status_getLsbD (s : State) (i : Nat) :
    s.status.getLsbD i =
      if i < 4 then s.state.code.getLsbD i
      else if i - 4 < 1 then decide (i - 4 = 0) && s.busy
      else if i - 5 < 1 then decide (i - 5 = 0) && s.seq
      else if i - 6 < 1 then decide (i - 6 = 0) && s.vok
      else if i - 7 < 1 then decide (i - 7 = 0) && s.herr
      else if i - 8 < 4 then s.err.code.getLsbD (i - 8)
      else if i - 12 < 2 then s.kidx.getLsbD (i - 12)
      else if i - 14 < 1 then decide (i - 14 = 0) && s.conn
      else false := by
  unfold State.status
  simp only [BitVec.getLsbD_append, BitVec.getLsbD_ofBool, BitVec.getLsbD_zero]
  simp only [Nat.sub_sub, Nat.reduceAdd]

/-- A field of `STATUS` is read off bit by bit. -/
theorem status_extractLsb' {s : State} {start len : Nat} {field : BitVec len}
    (h : ∀ i, i < len → s.status.getLsbD (start + i) = field.getLsbD i) : s.status.extractLsb' start len = field := by
  refine BitVec.eq_of_getLsbD_eq fun i hi => ?_
  rw [BitVec.getLsbD_extractLsb', h i hi]
  simp [hi]

end Sys2Proof.Machine

namespace Sys2Proof.Proofs

open Sys2Proof.Machine

/-- Settles O19: the reset event builds the state anew from `State.reset` and what it keeps. -/
theorem resetGivesTableValues : Obligations.ResetGivesTableValues := by
  refine ⟨fun s rest h => ⟨_, step_of_reset h, ?_⟩, fun s s' rest h h' hparams hpace hreads hdraws => ?_⟩
  · exact ⟨rfl, rfl, rfl, rfl, rfl, rfl, rfl, rfl, rfl, rfl, rfl, rfl, fun _ => rfl, rfl, rfl, rfl,
      resetEvent_status _, rfl, rfl⟩
  · rw [step_of_reset h, step_of_reset h']
    simp only [resetEvent, hparams, hpace, hreads, hdraws]

/-- Settles O20: the one-bit fields are bits of the concatenation, the wider ones are read off bit by bit; register 5
answers reads in every state and refuses writes. -/
theorem statusLayout : Obligations.StatusLayout := by
  refine ⟨fun s => ⟨?state, status_getLsbD s 4, status_getLsbD s 5, status_getLsbD s 6, status_getLsbD s 7, ?err, ?kidx,
    status_getLsbD s 14, status_getLsbD s 15⟩, fun s => ?read, fun s v => rfl, by decide⟩
  case state => exact status_extractLsb' fun i hi => by rw [Nat.zero_add, status_getLsbD, if_pos hi]
  case err =>
    exact status_extractLsb' fun i hi => by
      simp (disch := omega) only [status_getLsbD, if_neg, if_pos, Nat.add_sub_cancel_left]
  case kidx =>
    exact status_extractLsb' fun i hi => by
      simp (disch := omega) only [status_getLsbD, if_neg, if_pos, Nat.add_sub_cancel_left]
  case read => exact congrArg Host.Outcome.next (regRead_status s)

end Sys2Proof.Proofs
end

section
/-! The memory family, first part: the host's accesses, what each one leaves and when it is refused
(R52 to R55, R62). -/

namespace Sys2Proof.Machine

/-! ### `RegRead` (R52) -/

theorem registerValue_of_reserved {r : Nat} (h : 7 ≤ r) (s : State) : registerValue r s = none := by
  obtain ⟨k, rfl⟩ := Nat.exists_eq_add_of_le' h
  rfl

theorem regRead_cmd (s : State) : regRead cmdNumber s = reply (.byte 0#8) s := rfl

/-- A register with a value is read while the engine is not busy. -/
theorem regRead_granted {r : Nat} {s : State} {v : Reply} (hcmd : r ≠ cmdNumber) (hstatus : r ≠ statusNumber)
    (hvalue : registerValue r s = some v) (hbusy : s.busy = false) : regRead r s = reply v s := by
  simp [regRead, hcmd, hstatus, hvalue, hbusy]

/-- Every read but those of `CMD` and `STATUS` is refused while the engine is busy; a reserved number always is. -/
theorem regRead_refused {r : Nat} {s : State} (hcmd : r ≠ cmdNumber) (hstatus : r ≠ statusNumber)
    (h : s.busy = true ∨ registerValue r s = none) : regRead r s = refuseRead (replyShape r) s := by
  unfold regRead
  rw [if_neg hstatus, if_neg hcmd]
  cases hvalue : registerValue r s with
  | none => rfl
  | some v => exact if_pos (h.resolve_right (by simp [hvalue]))

/-! ### `RegWrite` (R53, R79) -/

theorem decodeCommand_of_reserved {c : Byte} (h : 8 < c.toNat) : decodeCommand c = .error (.reservedCommand c) := by
  obtain ⟨k, hk⟩ := Nat.exists_eq_add_of_le' h
  simp only [decodeCommand, hk]

theorem issueCommand_of_reserved {c : Byte} (h : 8 < c.toNat) (s : State) :
    issueCommand c s = .next (hostError s) := by
  simp only [issueCommand, decodeCommand_of_reserved h]

/-- The command written is the low byte of the value (R31). -/
theorem regWrite_cmd (v : Word64) (s : State) : regWrite cmdNumber v s = issueCommand (v.extractLsb' 0 8) s := by
  rw [← BitVec.setWidth_eq_extractLsb' (by omega)]
  rfl

theorem writeRegister_of_not_writable {r : Nat} (h : 4 ≤ r) (v : Word64) (s : State) : writeRegister r v s = none := by
  obtain ⟨k, rfl⟩ := Nat.exists_eq_add_of_le' h
  rfl

theorem regWrite_granted {r : Nat} {v : Word64} {s t : State} (hcmd : r ≠ cmdNumber)
    (hwrite : writeRegister r v s = some t) (hbusy : s.busy = false) : regWrite r v s = .next t := by
  simp [regWrite, hcmd, hwrite, hbusy]

/-- Every register write but a command is refused while the engine is busy; the other numbers always are. -/
theorem regWrite_refused {r : Nat} {v : Word64} {s : State} (hcmd : r ≠ cmdNumber)
    (h : s.busy = true ∨ writeRegister r v s = none) : regWrite r v s = .next (hostError s) := by
  unfold regWrite
  rw [if_neg hcmd]
  cases hwrite : writeRegister r v s with
  | none => rfl
  | some t =>
    have hbusy : s.busy = true := h.resolve_right (by simp [hwrite])
    simp only [hbusy, if_true]

/-! ### `PayRead` and `PayWrite` (R54, R55) -/

theorem payloadAccess_eq_false {a : Nat} {s : State} (h : s.params.maxPayload ≤ a ∨ s.busy = true) :
    ¬payloadAccess a s = true := by
  rw [payloadAccess_iff]
  rintro ⟨hrange, hbusy⟩
  rcases h with hout | hbusy'
  · omega
  · simp [hbusy] at hbusy'

theorem payRead_granted {a : Nat} {s : State} (hrange : a < s.params.maxPayload) (hbusy : s.busy = false) :
    payRead a s = draw (reply (.byte (payByte s a)) s) :=
  if_pos ((payloadAccess_iff a s).mpr ⟨hrange, hbusy⟩)

theorem payRead_refused {a : Nat} {s : State} (h : s.params.maxPayload ≤ a ∨ s.busy = true) :
    payRead a s = refuseRead (fun v => .byte (v.setWidth 8)) s :=
  if_neg (payloadAccess_eq_false h)

theorem payWrite_granted {a : Nat} {s : State} (hrange : a < s.params.maxPayload) (hbusy : s.busy = false) (b : Byte) :
    payWrite a b s = { s with pay := s.pay.write a b } :=
  if_pos ((payloadAccess_iff a s).mpr ⟨hrange, hbusy⟩)

theorem payWrite_refused {a : Nat} {s : State} (h : s.params.maxPayload ≤ a ∨ s.busy = true) (b : Byte) :
    payWrite a b s = hostError s :=
  if_neg (payloadAccess_eq_false h)

/-! ### A busy engine and the host (R62, R210, R235) -/

theorem exec_answers (i : Instr) (s : State) : ∃ t, exec i s = .next t := by
  cases i <;> exact ⟨_, rfl⟩

theorem issueCommand_answers (c : Byte) (s : State) : ∃ t, issueCommand c s = .next t := by
  unfold issueCommand
  cases decodeCommand c with
  | ok i => exact exec_answers i s
  | error _ => exact ⟨_, rfl⟩

/-- While the engine is busy every command is turned away (R181). -/
theorem CommandLeaves.eq_hostError_of_busy {s t : State} (h : CommandLeaves s t) (hbusy : s.busy = true) :
    t = hostError s := by
  have hnotIdle : s.state ≠ .idle := fun hidle => by simp [State.busy, hidle, SeqState.busy] at hbusy
  cases h with
  | refused => rfl
  | unchanged hquiet | cleared hquiet => simp [hbusy] at hquiet
  | rejected _ hidle | receives hidle | serves hidle | walks _ hidle => exact absurd hidle hnotIdle

theorem issueCommand_of_busy {s : State} (hbusy : s.busy = true) (c : Byte) :
    issueCommand c s = .next (hostError s) := by
  obtain ⟨t, h⟩ := issueCommand_answers c s
  rw [h, (issueCommand_leaves h).eq_hostError_of_busy hbusy]

/-- While the engine is busy a host access changes nothing but `HERR`, the record of reads and the draws. -/
theorem AccessLeaves.frame_of_busy {s t : State} (h : AccessLeaves s t) (hbusy : s.busy = true) :
    t = { s with herr := t.herr, reads := t.reads, draws := t.draws } := by
  cases h with
  | replied | payloadRead | readRefused => rfl
  | payloadWritten _ _ _ hquiet | registerWritten _ hquiet => simp [hbusy] at hquiet
  | command h =>
    obtain rfl := h.eq_hostError_of_busy hbusy
    rfl

/-- While the engine is busy every access but the reads of `CMD` and `STATUS` is a host error (R62). -/
theorem hostAccess_refused_of_busy {a : Access} {s : State} (hbusy : s.busy = true) (hcmd : a ≠ .regRead cmdNumber)
    (hstatus : a ≠ .regRead statusNumber) : ∃ t, hostAccess a s = .next t ∧ t.herr = true := by
  cases a with
  | regRead r =>
    have hrefused := regRead_refused (fun e => hcmd (e ▸ rfl)) (fun e => hstatus (e ▸ rfl)) (.inl hbusy)
    exact ⟨_, congrArg Host.Outcome.next hrefused, rfl⟩
  | regWrite r v =>
    refine ⟨hostError s, ?_, rfl⟩
    by_cases hr : r = cmdNumber
    · subst hr
      exact (regWrite_cmd v s).trans (issueCommand_of_busy hbusy _)
    · exact regWrite_refused hr (.inl hbusy)
  | payRead a => exact ⟨_, congrArg Host.Outcome.next (payRead_refused (.inr hbusy)), rfl⟩
  | payWrite a b => exact ⟨_, congrArg Host.Outcome.next (payWrite_refused (.inr hbusy) b), rfl⟩

end Sys2Proof.Machine

namespace Sys2Proof.Proofs

open Sys2Proof.Machine

/-- Settles O23: the two accesses are granted and refused together; a granted read takes the byte written where there is
one, and a granted write is one write of the payload memory. -/
theorem payloadAccess : Obligations.PayloadAccess := by
  refine fun s a => ⟨fun hrange hbusy => ?read, fun b hrange hbusy => ?write,
    fun h => ⟨?readRefused, fun b => ?writeRefused⟩⟩
  case read =>
    exact ⟨_, congrArg Host.Outcome.next (payRead_granted hrange hbusy),
      fun b hwritten => payByte_written s a b hwritten⟩
  case write =>
    exact ⟨_, congrArg Host.Outcome.next (payWrite_granted hrange hbusy b), Memory.read_write_self s.pay a b,
      fun a' hother => Memory.read_write_other s.pay a a' b hother⟩
  case readRefused => exact ⟨_, congrArg Host.Outcome.next (payRead_refused h)⟩
  case writeRefused => exact congrArg Host.Outcome.next (payWrite_refused h b)

/-- Settles O25: the reads of `CMD` and `STATUS` are answered, every other access is refused, and in both cases the
frame is that of any access to a busy engine. -/
theorem busyHostCannotDisturb : Obligations.BusyHostCannotDisturb := by
  intro a s hbusy
  by_cases hread : a = .regRead 4 ∨ a = .regRead 5
  · obtain ⟨v, hanswer⟩ : ∃ v, hostAccess a s = .next (reply v s) := by
      rcases hread with rfl | rfl
      · exact ⟨_, congrArg Host.Outcome.next (regRead_cmd s)⟩
      · exact ⟨_, congrArg Host.Outcome.next (regRead_status s)⟩
    refine ⟨_, hanswer, rfl, fun hcmd hstatus => ?_, fun _ => rfl⟩
    exact absurd hread (not_or.mpr ⟨hcmd, hstatus⟩)
  · obtain ⟨hcmd, hstatus⟩ := not_or.mp hread
    obtain ⟨t, hanswer, hherr⟩ := hostAccess_refused_of_busy hbusy hcmd hstatus
    exact ⟨t, hanswer, (hostAccess_leaves hanswer).frame_of_busy hbusy, fun _ _ => hherr, fun h => absurd h hread⟩

/-- Settles O21: `STATUS` and `CMD` answer in every state, the five other registers while the engine is not busy, and
whatever else is read is refused. -/
theorem registerReadReturns : Obligations.RegisterReadReturns := by
  refine fun s => ⟨congrArg Host.Outcome.next (regRead_status s), congrArg Host.Outcome.next (regRead_cmd s),
    fun hbusy => ?granted, fun r h => ?refused⟩
  case granted =>
    have hread {r : Nat} {v : Reply} (hcmd : r ≠ 4) (hstatus : r ≠ 5) (hvalue : registerValue r s = some v) :
        hostAccess (.regRead r) s = .next (reply v s) :=
      congrArg Host.Outcome.next (regRead_granted hcmd hstatus hvalue hbusy)
    exact ⟨hread (by omega) (by omega) rfl, hread (by omega) (by omega) rfl, hread (by omega) (by omega) rfl,
      hread (by omega) (by omega) rfl, hread (by omega) (by omega) rfl⟩
  case refused =>
    have hcmd : r ≠ 4 := by omega
    have hstatus : r ≠ 5 := by omega
    refine ⟨_, congrArg Host.Outcome.next (regRead_refused hcmd hstatus ?_)⟩
    rcases h with ⟨_, hbusy⟩ | hreserved
    · exact .inl hbusy
    · exact .inr (registerValue_of_reserved hreserved s)

/-- Settles O22: a granted write stores the value cut to the register's width, which gives back a value of that width; a
write to `CMD` issues the command of its low byte, and whatever else is written is refused. -/
theorem registerWriteStores : Obligations.RegisterWriteStores := by
  refine fun s v => ⟨fun hbusy => ⟨fun w => ?op, fun w => ?csum, fun w => ?key, ?len⟩, fun i hdecode => ?command,
    fun hreserved => ?reserved, fun r h => ?refused⟩
  case op => exact regWrite_granted (by decide) (by simp [writeRegister]) hbusy
  case csum => exact regWrite_granted (by decide) (by simp [writeRegister]) hbusy
  case key => exact regWrite_granted (by decide) (by simp [writeRegister, Keyword.ofWord]) hbusy
  case len => exact regWrite_granted (by decide) rfl hbusy
  case command => exact (regWrite_cmd v s).trans (issueCommand_of_decode hdecode s)
  case reserved => exact (regWrite_cmd v s).trans (issueCommand_of_reserved hreserved s)
  case refused =>
    have hcmd : r ≠ 4 := by omega
    refine regWrite_refused hcmd ?_
    rcases h with hnumber | ⟨_, hbusy⟩
    · exact .inr (writeRegister_of_not_writable (by omega) v s)
    · exact .inl hbusy

end Sys2Proof.Proofs
end

section
/-! The memory family, second part: `TXLOG` only grows, and what grows it ends the engine's run (R63, R191, R212). -/

namespace Sys2Proof.Machine

/-! ### The engine sends once, in its last step -/

/-- From a state whose `TXLOG` was `log`, nothing has been sent, or bytes have been appended and the engine has ended its
command, with no cause but `TXFAIL` if it was rejected (R105, R191). -/
def logGrown (log : Bytes) (s : State) : Prop :=
  s.txlog = log ∨ (∃ sent, s.txlog = log ++ sent) ∧ s.busy = false ∧ (s.state = .rejected → s.err = .txFail)

theorem acceptHeader_txlog (h : Header) (s : State) : (acceptHeader h s).txlog = s.txlog := by
  rcases acceptHeader_cases h s with ⟨c, _, e⟩ | ⟨_, e⟩ <;> rw [e] <;> rfl

theorem dispatch_txlog (s : State) : (dispatch s).txlog = s.txlog := by
  rcases dispatch_cases s with ⟨_, e⟩ | ⟨d, _, _, e⟩ | ⟨d, _, _, e⟩ <;> rw [e] <;> rfl

theorem verifyStep_txlog (s : State) : (verifyStep s).txlog = s.txlog := by
  rcases verifyStep_cases s with ⟨_, e⟩ | ⟨_, _, e⟩ | ⟨_, _, e⟩ <;> rw [e]
  · exact phaseVerify_txlog s
  · exact phaseVerify_txlog s
  · exact (dispatch_txlog _).trans (phaseVerify_txlog s)

theorem recvHeaderStep_txlog {s t : State} (h : recvHeaderStep s = some t) : t.txlog = s.txlog := by
  rcases recvHeaderStep_cases h with ⟨_, rfl⟩ | ⟨_, _, rfl⟩ | ⟨_, _, _, rfl⟩
  · rfl
  · exact acceptHeader_txlog _ _
  · rfl

theorem recvPayloadStep_txlog {s t : State} (h : recvPayloadStep s = some t) : t.txlog = s.txlog := by
  rcases recvPayloadStep_cases h with ⟨_, rfl⟩ | ⟨_, _, rfl⟩ <;> rfl

theorem sendStep_logGrown {s t : State} (h : sendStep s = some t) : logGrown s.txlog t := by
  rcases sendStep_cases h with ⟨_, rfl⟩ | ⟨plan, _, _, rfl⟩ | ⟨p, plan, q, _, _, _, rfl⟩
  · exact .inl rfl
  · rcases afterSend_cases { draw s with txlog := s.txlog ++ s.packetImage, txPlan := plan } with
      ⟨_, e⟩ | ⟨_, e⟩ <;> rw [e]
    · exact .inr ⟨⟨s.packetImage, rfl⟩, rfl, nofun⟩
    · exact .inr ⟨⟨s.packetImage, rfl⟩, rfl, nofun⟩
  · exact .inr ⟨⟨s.packetImage.take q, rfl⟩, rfl, fun _ => rfl⟩

theorem engineStep_logGrown {s t : State} (h : engineStep s = some t) : logGrown s.txlog t := by
  rcases engineStep_cases h with
    ⟨_, _, h⟩ | ⟨_, _, h⟩ | ⟨_, rfl⟩ | ⟨d, _, rfl⟩ | ⟨_, rfl⟩ | ⟨_, h⟩
  · exact .inl (recvHeaderStep_txlog h)
  · exact .inl (recvPayloadStep_txlog h)
  · exact .inl (verifyStep_txlog s)
  · exact .inl (phaseXform_txlog d s)
  · exact .inl (phaseSum_txlog s)
  · exact sendStep_logGrown h

/-- Once something has been sent the engine has ended its command, so there is no further step. -/
theorem logGrown.engineStep {log : Bytes} {s t : State} (h : logGrown log s) (hstep : engineStep s = some t) :
    logGrown log t := by
  rcases h with hkept | ⟨_, hended, _⟩
  · exact hkept ▸ engineStep_logGrown hstep
  · simp [engineStep_busy s t hstep] at hended

theorem advance_logGrown {log : Bytes} {s : State} (h : s.txlog = log) : logGrown log (advance s) :=
  advance_keeps (fun _ _ => logGrown.engineStep) s (.inl h)

theorem engineRun_logGrown (s : State) : logGrown s.txlog (engineRun s) :=
  engineRun_keeps (fun _ _ => logGrown.engineStep) s (.inl rfl)

/-! ### Every agent's turn but the reset event -/

theorem CommandLeaves.logGrown {s t : State} (h : CommandLeaves s t) : logGrown s.txlog t := by
  cases h with
  | refused | unchanged | cleared | rejected => exact .inl rfl
  | receives | serves | walks => exact advance_logGrown rfl

theorem AccessLeaves.logGrown {s t : State} (h : AccessLeaves s t) : logGrown s.txlog t := by
  cases h with
  | replied | payloadRead | readRefused | payloadWritten | registerWritten => exact .inl rfl
  | command h => exact h.logGrown

theorem linkStep_txlog (e : LinkEvent) (s : State) : (linkStep e s).txlog = s.txlog := by
  cases e with
  | rx bs => dsimp only [linkStep]; split <;> rfl
  | eof | tx answer => rfl

theorem TurnLeaves.logGrown {s t : State} {turn : Turn} (h : TurnLeaves s turn t) (hturn : turn ≠ .reset) :
    logGrown s.txlog t := by
  cases h with
  | host a h => exact h.logGrown
  | wait | setPace => exact .inl rfl
  | link e => exact .inl (linkStep_txlog e s)
  | engine => exact engineRun_logGrown s
  | reset => exact absurd rfl hturn

end Sys2Proof.Machine

namespace Sys2Proof.Proofs

open Sys2Proof.Machine

/-- Settles O17: what a turn sends it sends in the engine's last step, which ends the command or rejects with `TXFAIL`. -/
theorem transmitLogOnlyGrows : Obligations.TransmitLogOnlyGrows := by
  intro s t hstep hnoReset
  obtain ⟨turn, rest, hturn, hagenda⟩ := step_leaves hstep
  have hother : turn ≠ .reset := by
    rintro rfl
    rcases hagenda with hlisted | ⟨_, _, hengine⟩
    · simp [hlisted] at hnoReset
    · cases hengine
  rcases hturn.logGrown hother with hkept | ⟨hgrown, _, hcause⟩
  · exact ⟨⟨[], by simp [hkept]⟩, fun _ _ => hkept⟩
  · exact ⟨hgrown, fun hrejected hnotTx => absurd (hcause hrejected) hnotTx⟩

end Sys2Proof.Proofs
end

section
/-! The memory family, third part: a header read back from its image (R72, R75). -/

namespace Sys2Proof

/-! ### Numbers and their bytes (R8) -/

theorem beNat_eq_leNat_reverse (bs : Bytes) : beNat bs = leNat bs.reverse := by
  unfold beNat leNat
  rw [List.foldr_reverse]
  congr 1
  funext acc b
  rw [Nat.mul_comm, Nat.add_comm]

theorem leNat_bytesLe (n v : Nat) : leNat (bytesLe n v) = v % 256 ^ n := by
  induction n generalizing v with
  | zero => simp [bytesLe, leNat, Nat.mod_one]
  | succ n ih =>
    have hhead : leNat (bytesLe (n + 1) v) = v % 256 + 256 * leNat (bytesLe n (v / 256)) := by
      simp [bytesLe, leNat]
    rw [hhead, ih, Nat.pow_succ', Nat.mod_mul]

theorem beNat_bytesBe (n v : Nat) : beNat (bytesBe n v) = v % 256 ^ n := by
  rw [beNat_eq_leNat_reverse, bytesBe, List.reverse_reverse, leNat_bytesLe]

theorem orderedNat_orderedBytes (o : ByteOrder) (n v : Nat) : orderedNat o (orderedBytes o n v) = v % 256 ^ n := by
  cases o with
  | be => exact beNat_bytesBe n v
  | le => exact leNat_bytesLe n v

/-! ### The parse of an image (R75) -/

theorem slice_of_append {bs pre mid post : Bytes} {i k : Nat} (hbs : bs = pre ++ (mid ++ post)) (hpre : pre.length = i)
    (hmid : mid.length = k) : slice bs i k = mid := by
  rw [hbs, slice, List.drop_left' hpre, List.take_left' hmid]

theorem byteAt_of_append {bs pre post : Bytes} {i : Nat} (hbs : bs = pre ++ post) (hpre : pre.length = i) (j : Nat) :
    byteAt bs (i + j) = byteAt post j := by
  rw [hbs, byteAt, List.getD_append_right _ _ _ _ (by omega), hpre, Nat.add_sub_cancel_left]
  rfl

/-- A register of `n` bytes is the number its bytes stand for. -/
theorem ofNat_toNat_mod {w n : Nat} (hw : 256 ^ n = 2 ^ w) (v : BitVec w) :
    BitVec.ofNat w (v.toNat % 256 ^ n) = v := by
  rw [hw, Nat.mod_eq_of_lt v.isLt, BitVec.ofNat_toNat, BitVec.setWidth_eq]

/-- Every field is read back from where R72 puts it: the keyword byte by byte, the three numbers from their bytes. -/
theorem parseHeader_headerImage (o : ByteOrder) (h : Header) : parseHeader o (headerImage o h) = h := by
  have hopLen : (bytesBe 2 h.op.toNat).length = 2 := Laws.bytesBe_length _ _
  have hcsumLen : (orderedBytes o 2 h.csum.toNat).length = 2 := Laws.orderedBytes_length _ _ _
  have hlenLen : (bytesBe 8 h.len.toNat).length = 8 := Laws.bytesBe_length _ _
  have hop : slice (headerImage o h) 0 2 = bytesBe 2 h.op.toNat :=
    slice_of_append (pre := []) (post := orderedBytes o 2 h.csum.toNat ++ h.key.bytes ++ bytesBe 8 h.len.toNat)
      (by simp [headerImage]) rfl hopLen
  have hcsum : slice (headerImage o h) 2 2 = orderedBytes o 2 h.csum.toNat :=
    slice_of_append (post := h.key.bytes ++ bytesBe 8 h.len.toNat) (by simp [headerImage]) hopLen hcsumLen
  have hlen : slice (headerImage o h) 8 8 = bytesBe 8 h.len.toNat :=
    slice_of_append (pre := bytesBe 2 h.op.toNat ++ orderedBytes o 2 h.csum.toNat ++ h.key.bytes) (post := [])
      (by simp [headerImage]) (by simp [hopLen, hcsumLen, Keyword.bytes]) hlenLen
  have hkey (j : Nat) : byteAt (headerImage o h) (4 + j) = byteAt (h.key.bytes ++ bytesBe 8 h.len.toNat) j :=
    byteAt_of_append (pre := bytesBe 2 h.op.toNat ++ orderedBytes o 2 h.csum.toNat)
      (by simp [headerImage]) (by simp [hopLen, hcsumLen]) j
  unfold parseHeader
  rw [hop, hcsum, hlen, beNat_bytesBe, orderedNat_orderedBytes, beNat_bytesBe, ofNat_toNat_mod (by rfl),
    ofNat_toNat_mod (by rfl), ofNat_toNat_mod (by rfl), hkey 0, hkey 1, hkey 2, hkey 3]
  rfl

end Sys2Proof
end

section
/-! The memory family, fourth part: the two receive steps by what has arrived, and where the engine holds on the LINK
(R57, R58, R100 to R102, R236). -/

namespace Sys2Proof.Machine

/-! ### Which step the engine takes (R190, log 18) -/

theorem engineStep_of_header {s : State} (hstate : s.state = .receiving) (hhdr : s.hdrTaken = false) :
    engineStep s = recvHeaderStep s := by
  simp [engineStep, hstate, hhdr]

theorem engineStep_of_payload {s : State} (hstate : s.state = .receiving) (hhdr : s.hdrTaken = true) :
    engineStep s = recvPayloadStep s := by
  simp [engineStep, hstate, hhdr]

theorem engineStep_of_sending {s : State} (hstate : s.state = .sending) : engineStep s = sendStep s := by
  simp [engineStep, hstate]

/-! ### `RxTake` by what has arrived (R57) -/

theorem rxTake_of_arrived {k : Nat} {s : State} (h : k ≤ s.rxq.length) :
    rxTake k s = .bytes (s.rxq.take k) { s with rxq := s.rxq.drop k } := by
  rcases rxTake_cases k s with ⟨_, e⟩ | ⟨hshort, _⟩ | ⟨hshort, _⟩
  · exact e
  · omega
  · omega

theorem rxTake_of_ended {k : Nat} {s : State} (h : s.rxq.length < k) (heof : s.rxeof = true) :
    rxTake k s = .closed { s with rxq := s.rxq.drop (Config.lostBytes s.draws), draws := s.draws + 1 } := by
  rcases rxTake_cases k s with ⟨harrived, _⟩ | ⟨_, _, e⟩ | ⟨_, hopen, _⟩
  · omega
  · exact e
  · simp [heof] at hopen

theorem rxTake_eq_hold_iff (k : Nat) (s : State) : rxTake k s = .hold ↔ s.rxq.length < k ∧ s.rxeof = false := by
  rcases rxTake_cases k s with ⟨harrived, e⟩ | ⟨_, heof, e⟩ | ⟨hshort, hopen, e⟩ <;> rw [e]
  · simp [harrived]
  · simp [heof]
  · simp [hshort, hopen]

/-- Whatever number of bytes a close takes with it, fewer than were asked for have left the stream (R102, log 7). -/
theorem exists_drop_lt {k : Nat} {bs : Bytes} (h : bs.length < k) (lost : Nat) :
    ∃ n, n < k ∧ bs.drop lost = bs.drop n :=
  ⟨min lost bs.length, by omega, List.drop_eq_drop_min⟩

/-! ### The first receive step (R100) -/

theorem recvHeaderStep_of_ended {s : State} (hconn : s.conn = true) (hlen : s.rxq.length < 16)
    (heof : s.rxeof = true) :
    recvHeaderStep s =
      some (reject .rxFail
        { s with rxq := s.rxq.drop (Config.lostBytes s.draws), draws := s.draws + 1, vok := false }) := by
  simp [recvHeaderStep, Config.headerBytes, hconn, rxTake_of_ended hlen heof]

theorem recvHeaderStep_of_closed {s : State} (hconn : s.conn = false) :
    recvHeaderStep s = some (reject .rxFail { s with vok := false }) := by
  simp [recvHeaderStep, hconn]

theorem recvHeaderStep_eq_none_iff (s : State) :
    recvHeaderStep s = none ↔ s.conn = true ∧ s.rxq.length < 16 ∧ s.rxeof = false := by
  rw [← rxTake_eq_hold_iff]
  unfold recvHeaderStep Config.headerBytes
  cases s.conn with
  | false => simp
  | true => cases rxTake 16 s <;> simp

theorem acceptHeader_of_lengthOk {h : Header} {s : State} (hlen : lengthOk (loadHeader h { s with vok := false })) :
    acceptHeader h s = { loadHeader h { s with vok := false } with hdrTaken := true } := by
  simp only [acceptHeader, checked, (checkLen_eq_none _).mpr hlen]

/-! ### The second receive step (R100, R102) -/

theorem recvPayloadStep_of_arrived {s : State} (hlen : s.payloadSize ≤ s.rxq.length) :
    recvPayloadStep s =
      some { s with
        rxq := s.rxq.drop s.payloadSize, pay := s.pay.writeBytes 0 (s.rxq.take s.payloadSize)
        hdrTaken := false, state := if s.seq then .verifying else .idle } := by
  unfold recvPayloadStep
  rw [rxTake_of_arrived hlen]

theorem recvPayloadStep_of_ended {s : State} (hlen : s.rxq.length < s.payloadSize) (heof : s.rxeof = true) :
    recvPayloadStep s =
      some (reject .rxFail
        { s with
          rxq := s.rxq.drop (Config.lostBytes s.draws), draws := s.draws + 1
          pay := s.pay.forgetBelow s.payloadSize }) := by
  unfold recvPayloadStep
  rw [rxTake_of_ended hlen heof]
  rfl

theorem recvPayloadStep_eq_none_iff (s : State) :
    recvPayloadStep s = none ↔ s.rxq.length < s.payloadSize ∧ s.rxeof = false := by
  rw [← rxTake_eq_hold_iff]
  unfold recvPayloadStep
  cases rxTake s.payloadSize s <;> simp

theorem payloadIs_writeBytes (m : Memory) (bs : Bytes) : payloadIs (m.writeBytes 0 bs) bs := by
  intro a ha
  rw [Memory.read_writeBytes, if_pos (by omega), Nat.sub_zero]

theorem payloadKeptFrom_writeBytes {n : Nat} {bs : Bytes} (hlen : bs.length ≤ n) (m : Memory) :
    payloadKeptFrom n m (m.writeBytes 0 bs) := by
  intro a ha
  rw [Memory.read_writeBytes, if_neg (by omega)]

theorem payloadKeptFrom_forgetBelow (n : Nat) (m : Memory) : payloadKeptFrom n m (m.forgetBelow n) := by
  intro a ha
  rw [Memory.read_forgetBelow, if_pos ha]

/-! ### Where the engine holds (R57, R58, R236) -/

theorem sendStep_eq_none_iff (s : State) : sendStep s = none ↔ s.conn = true ∧ s.txPlan = [] := by
  unfold sendStep
  cases s.conn with
  | false => simp
  | true =>
    rcases txPut_cases s.packetImage (draw s) (packetImage_ne_nil s) with
      ⟨plan, hplan, e⟩ | ⟨p, plan, q, hplan, _, e⟩ | ⟨hplan, e⟩ <;>
      rw [draw_txPlan] at hplan <;> rw [e, hplan] <;> simp

/-- The places in which the engine's step waits for a step of the LINK. -/
def State.holdsOnLink (s : State) : Prop :=
  (s.state = .receiving ∧ s.hdrTaken = false ∧ s.conn = true ∧ s.rxq.length < 16 ∧ s.rxeof = false) ∨
    (s.state = .receiving ∧ s.hdrTaken = true ∧ s.rxq.length < s.payloadSize ∧ s.rxeof = false) ∨
    (s.state = .sending ∧ s.conn = true ∧ s.txPlan = [])

/-- The engine's step is not enabled exactly when no command runs or the engine holds on the LINK. -/
theorem engineStep_eq_none_iff (s : State) : engineStep s = none ↔ s.busy = false ∨ s.holdsOnLink := by
  unfold State.busy State.holdsOnLink
  cases hstate : s.state with
  | idle | closed | rejected => simp [engineStep, hstate, SeqState.busy]
  | verifying | encrypting | decrypting | summing => simp [engineStep, hstate, SeqState.busy]
  | receiving =>
    cases hhdr : s.hdrTaken with
    | false => simp [engineStep_of_header hstate hhdr, recvHeaderStep_eq_none_iff, SeqState.busy]
    | true => simp [engineStep_of_payload hstate hhdr, recvPayloadStep_eq_none_iff, SeqState.busy]
  | sending => simp [engineStep_of_sending hstate, sendStep_eq_none_iff, SeqState.busy]

/-- What decides whether the engine's step is enabled. -/
def State.enabling (s : State) : SeqState × Bool × Bool × Word64 × Bytes × Bool × List TxAnswer :=
  (s.state, s.hdrTaken, s.conn, s.len, s.rxq, s.rxeof, s.txPlan)

theorem engineStep_eq_none_congr {s t : State} (hsame : t.enabling = s.enabling) (h : engineStep s = none) :
    engineStep t = none := by
  simp only [State.enabling, Prod.mk.injEq] at hsame
  obtain ⟨hstate, hhdr, hconn, hlen, hrxq, heof, hplan⟩ := hsame
  rw [engineStep_eq_none_iff] at h ⊢
  unfold State.busy State.holdsOnLink State.payloadSize at *
  rwa [hstate, hhdr, hconn, hlen, hrxq, heof, hplan]

/-! ### Turns of a held engine -/

theorem runEngine_of_held {s : State} (h : engineStep s = none) (k : Nat) : runEngine k s = s := by
  cases k with
  | zero => rfl
  | succ k => simp only [runEngine, h]

theorem advance_of_held {s : State} (h : engineStep s = none) : advance s = s := by
  rcases advance_cases s with ⟨_, e⟩ | ⟨_, e⟩ <;> rw [e]
  exact runEngine_of_held h _

theorem engineRun_of_held {s : State} (h : engineStep s = none) : engineRun s = s := by
  simp only [engineRun, h]

/-- When the pace is merged and the engine holds after one step, it has taken that step. -/
theorem advance_of_step_held {s t : State} (hpace : s.pace = .merged) (hstep : engineStep s = some t)
    (hheld : engineStep t = none) : advance s = t := by
  have hrun : advance s = runEngine 5 t := by simp only [advance, hpace, longestRun, runEngine, hstep]
  rw [hrun, runEngine_of_held hheld]

theorem run_succ_of_step {s t : State} (h : step s = .next t) (n : Nat) :
    Host.Core.run Sys2Proof.core (n + 1) s = Host.Core.run Sys2Proof.core n t := by
  have hstep : Sys2Proof.core.step s = .next t := h
  simp only [Host.Core.run, hstep]

/-- However many turns a held engine gets, it uses them up and changes nothing else. -/
theorem run_engineTurns_of_held {s : State} (h : engineStep s = none) (n : Nat) :
    Host.Core.run Sys2Proof.core n ({ s with agenda := List.replicate n .engine ++ s.agenda } : State) = .next s := by
  induction n with
  | zero => rfl
  | succ n ih =>
    have hheld (turns : List Turn) : engineStep { s with agenda := turns } = none :=
      engineStep_eq_none_congr (s := s) rfl h
    have hturn (turns : List Turn) : step { s with agenda := .engine :: turns } = .next { s with agenda := turns } :=
      (engineTurn_eq_engineRun _).trans (congrArg Host.Outcome.next (engineRun_of_held (hheld turns)))
    exact (run_succ_of_step (hturn _) n).trans ih

/-- Only a step of the LINK enables a held engine again. -/
theorem TurnLeaves.held {s t : State} {turn : Turn} (h : TurnLeaves s turn t) (hbusy : s.busy = true)
    (hheld : engineStep s = none) (hturn : ∀ e, turn ≠ .link e) : engineStep t = none := by
  cases h with
  | host a h =>
    rw [h.frame_of_busy hbusy]
    exact engineStep_eq_none_congr (s := s) rfl hheld
  | wait | setPace => exact engineStep_eq_none_congr (s := s) rfl hheld
  | link e => exact absurd rfl (hturn e)
  | engine => rwa [engineRun_of_held hheld]
  | reset => rfl

/-! ### `RECV` and `SERVE` in `IDLE` -/

theorem acceptCommand_of_idle {s : State} (hidle : s.state = .idle) (run : State → State) :
    acceptCommand s run = run s := by
  simp [acceptCommand, State.busy, hidle, SeqState.busy, SeqState.terminal]

theorem exec_recv_of_idle {s : State} (hidle : s.state = .idle) :
    exec .recv s = .next (advance (openReceive s)) :=
  congrArg Host.Outcome.next (acceptCommand_of_idle hidle _)

theorem exec_serve_of_idle {s : State} (hidle : s.state = .idle) :
    exec .serve s = .next (advance (openReceive { s with seq := true })) :=
  congrArg Host.Outcome.next (acceptCommand_of_idle hidle _)

/-- Both receiving commands open the receive phase; `SEQ` is what tells them apart (R185, R189). -/
theorem exec_receive_of_idle {s : State} {i : Instr} (hi : i = .recv ∨ i = .serve) (hidle : s.state = .idle) :
    ∃ seq, exec i s = .next (advance (openReceive { s with seq := seq })) := by
  rcases hi with rfl | rfl
  · exact ⟨s.seq, exec_recv_of_idle hidle⟩
  · exact ⟨true, exec_serve_of_idle hidle⟩

theorem openReceive_held {s : State} (hconn : s.conn = true) (hlen : s.rxq.length < 16) (heof : s.rxeof = false) :
    engineStep (openReceive s) = none :=
  (engineStep_eq_none_iff _).mpr (.inr (.inl ⟨rfl, rfl, hconn, hlen, heof⟩))

/-- Between the two receive steps: the header `h` is loaded, and `rest` is what the stream still holds (R100). -/
def headerLoaded (h : Header) (rest : Bytes) (s : State) : State :=
  { loadHeader h { s with rxq := rest, vok := false } with hdrTaken := true }

/-- A header of well-formed length that has arrived whole is loaded by the first receive step, and the length passes. -/
theorem engineStep_of_header_arrived {s : State} {h : Header} {rest : Bytes} (hstate : s.state = .receiving)
    (hhdr : s.hdrTaken = false) (hconn : s.conn = true) (hrxq : s.rxq = headerImage s.params.hostOrder h ++ rest)
    (hlow : 16 ≤ h.len.toNat) (hhigh : h.len.toNat - 16 ≤ s.params.maxPayload) :
    engineStep s = some (headerLoaded h rest s) := by
  have himage : (headerImage s.params.hostOrder h).length = 16 := Laws.headerImage_length _ h
  have hlen : 16 ≤ s.rxq.length := by simp [hrxq]
  rw [engineStep_of_header hstate hhdr, recvHeaderStep_of_arrived hconn hlen, hrxq, List.take_left' himage,
    List.drop_left' himage, parseHeader_headerImage]
  exact congrArg some (acceptHeader_of_lengthOk (s := { s with rxq := rest }) ⟨hlow, hhigh⟩)

theorem headerLoaded_held {h : Header} {rest : Bytes} {s : State} (hstate : s.state = .receiving)
    (hopen : s.rxeof = false) (hshort : rest.length < h.len.toNat - 16) : engineStep (headerLoaded h rest s) = none :=
  (engineStep_eq_none_iff _).mpr (.inr (.inr (.inl ⟨hstate, rfl, hshort, hopen⟩)))

end Sys2Proof.Machine

namespace Sys2Proof.Proofs

open Sys2Proof.Machine

/-- Settles O42: each outcome is the receive step with what `RxTake` answers there; the invariant holds `VOK = 0`
between the two steps. -/
theorem receiveStepOutcomes : Obligations.ReceiveStepOutcomes := by
  intro s hstate
  refine ⟨fun hhdr hconn => ?header, fun hhdr hconn => ?closed, fun hhdr => ?payload⟩
  case header =>
    rw [engineStep_of_header hstate hhdr]
    refine ⟨fun hlen => recvHeaderStep_of_arrived hconn hlen,
      fun hlen hopen => (recvHeaderStep_eq_none_iff s).mpr ⟨hconn, hlen, hopen⟩, fun hlen heof => ?_⟩
    obtain ⟨k, hk, hdrop⟩ := exists_drop_lt hlen (Config.lostBytes s.draws)
    exact ⟨_, recvHeaderStep_of_ended hconn hlen heof, ⟨rfl, rfl, rfl, rfl⟩, rfl, rfl, rfl,
      ⟨k, by omega, hdrop⟩, rfl⟩
  case closed =>
    rw [engineStep_of_header hstate hhdr]
    exact recvHeaderStep_of_closed hconn
  case payload =>
    rw [engineStep_of_payload hstate hhdr]
    refine ⟨fun hlen => ?_, fun hlen hopen => (recvPayloadStep_eq_none_iff s).mpr ⟨hlen, hopen⟩,
      fun hlen heof => ?_⟩
    · exact ⟨_, recvPayloadStep_of_arrived hlen, rfl, payloadIs_writeBytes _ _,
        payloadKeptFrom_writeBytes (List.length_take_le _ _) _, rfl⟩
    · obtain ⟨k, hk, hdrop⟩ := exists_drop_lt hlen (Config.lostBytes s.draws)
      exact ⟨_, recvPayloadStep_of_ended hlen heof, ⟨rfl, rfl, rfl, rfl⟩, rfl, fun hinv => hinv.unverified hhdr, rfl,
        payloadKeptFrom_forgetBelow _ _, ⟨k, hk, hdrop⟩, rfl⟩

/-- Settles O44: whether the engine's step is enabled depends on the link and on what only the engine writes while it is
busy, so no turn but the LINK's enables it. -/
theorem heldEngineStays : Obligations.HeldEngineStays := by
  refine ⟨fun s hidle hpace hconn hopen => ⟨fun hlen => ?beforeHeader, ?beforePayload⟩,
    fun s n hheld => run_engineTurns_of_held hheld n, fun s t turn hbusy hheld hfirst hstep henabled => ?released⟩
  case beforeHeader =>
    obtain ⟨hstate, _⟩ := hidle
    rw [exec_recv_of_idle hstate, exec_serve_of_idle hstate, advance_of_held (openReceive_held hconn hlen hopen),
      advance_of_held (openReceive_held (s := { s with seq := true }) hconn hlen hopen)]
    exact ⟨rfl, rfl⟩
  case beforePayload =>
    intro i h rest hi hrxq hlow hhigh hshort
    obtain ⟨hstate, _⟩ := hidle
    obtain ⟨seq, hexec⟩ := exec_receive_of_idle hi hstate
    have hstep := engineStep_of_header_arrived (s := openReceive { s with seq := seq }) rfl rfl hconn hrxq hlow hhigh
    have hheld := headerLoaded_held (h := h) (s := openReceive { s with seq := seq }) rfl hopen hshort
    rw [advance_of_step_held (s := openReceive { s with seq := seq }) hpace hstep hheld] at hexec
    exact ⟨_, hexec, rfl, rfl, rfl, rfl, rfl, rfl, hconn, rfl, hheld⟩
  case released =>
    obtain ⟨turn', rest, hturn, hlisted | ⟨hempty, _, _⟩⟩ := step_leaves hstep
    · obtain rfl : turn' = turn := by simpa [hlisted] using hfirst
      by_contra hnoLink
      refine henabled (hturn.held hbusy ?_ (not_exists.mp hnoLink))
      exact engineStep_eq_none_congr (s := s) rfl hheld
    · simp [hempty] at hfirst

end Sys2Proof.Proofs
end

section
/-! The encoding family, first part: numbers and their bytes, the header image byte by byte, and what the decoder reads
from it (R71, R72, R75, R78). -/

namespace Sys2Proof

/-! ### A number as its bytes, and bytes as their number (R8) -/

theorem bytesLe_eq_map (n v : Nat) : bytesLe n v = (List.range n).map fun i => BitVec.ofNat 8 (v / 256 ^ i) := by
  induction n generalizing v with
  | zero => rfl
  | succ n ih =>
    rw [bytesLe, ih, List.range_succ_eq_map, List.map_cons, List.map_map, Nat.pow_zero, Nat.div_one]
    congr 2
    funext i
    rw [Function.comp_apply, Nat.pow_succ', Nat.div_div_eq_div_mul]

/-- The bytes of a register are its bits, eight at a time, the low ones first. -/
theorem bytesLe_toNat {w : Nat} (n : Nat) (v : BitVec w) :
    bytesLe n v.toNat = (List.range n).map fun i => v.extractLsb' (8 * i) 8 := by
  rw [bytesLe_eq_map]
  congr 1
  funext i
  apply BitVec.eq_of_toNat_eq
  rw [BitVec.toNat_ofNat, BitVec.extractLsb'_toNat, Nat.shiftRight_eq_div_pow, Nat.pow_mul]

theorem leNat_cons (b : Byte) (bs : Bytes) : leNat (b :: bs) = b.toNat + 256 * leNat bs := rfl

theorem bytesLe_leNat (bs : Bytes) : bytesLe bs.length (leNat bs) = bs := by
  induction bs with
  | nil => rfl
  | cons b rest ih =>
    have hlow : BitVec.ofNat 8 (b.toNat + 256 * leNat rest) = b := by
      apply BitVec.eq_of_toNat_eq
      rw [BitVec.toNat_ofNat]
      omega
    have hhigh : (b.toNat + 256 * leNat rest) / 256 = leNat rest := by omega
    rw [leNat_cons, List.length_cons, bytesLe, hlow, hhigh, ih]

theorem bytesBe_beNat (bs : Bytes) : bytesBe bs.length (beNat bs) = bs := by
  rw [beNat_eq_leNat_reverse, bytesBe, ← List.length_reverse, bytesLe_leNat, List.reverse_reverse]

theorem orderedBytes_orderedNat (o : ByteOrder) (bs : Bytes) : orderedBytes o bs.length (orderedNat o bs) = bs := by
  cases o with
  | be => exact bytesBe_beNat bs
  | le => exact bytesLe_leNat bs

theorem leNat_lt (bs : Bytes) : leNat bs < 256 ^ bs.length := by
  induction bs with
  | nil => exact Nat.one_pos
  | cons b rest ih =>
    rw [leNat_cons, List.length_cons, Nat.pow_succ']
    omega

theorem orderedNat_lt (o : ByteOrder) (bs : Bytes) : orderedNat o bs < 256 ^ bs.length := by
  cases o with
  | be =>
    have hlt := leNat_lt bs.reverse
    rwa [← beNat_eq_leNat_reverse, List.length_reverse] at hlt
  | le => exact leNat_lt bs

/-- A register of `n` bytes holds the number of any `n` bytes, and gives them back. -/
theorem orderedBytes_ofNat_orderedNat {w n : Nat} (o : ByteOrder) {bs : Bytes} (hbs : bs.length = n)
    (hw : 256 ^ n = 2 ^ w) : orderedBytes o n (BitVec.ofNat w (orderedNat o bs)).toNat = bs := by
  subst hbs
  rw [BitVec.toNat_ofNat, Nat.mod_eq_of_lt (hw ▸ orderedNat_lt o bs), orderedBytes_orderedNat]

/-- One more byte below a number is that byte appended to the register. -/
theorem ofNat_append_byte (w n : Nat) (b : Byte) :
    BitVec.ofNat (w + 8) (n * 256 + b.toNat) = BitVec.ofNat w n ++ b := by
  apply BitVec.eq_of_toNat_eq
  have hb : b.toNat < 2 ^ 8 := b.isLt
  have hlow : (n * 256 + b.toNat) % 2 ^ 8 = b.toNat := by omega
  have hhigh : (n * 256 + b.toNat) / 2 ^ 8 = n := by omega
  rw [BitVec.toNat_append, ← Nat.shiftLeft_add_eq_or_of_lt hb, BitVec.toNat_ofNat, BitVec.toNat_ofNat,
    Nat.shiftLeft_eq, Nat.pow_add, Nat.mul_comm (2 ^ w), Nat.mod_mul, hlow, hhigh]
  omega

theorem ofNat_first_byte (b : Byte) : BitVec.ofNat 8 (0 * 256 + b.toNat) = b := by simp

theorem ofNat_beNat_pair (b0 b1 : Byte) : BitVec.ofNat 16 (beNat [b0, b1]) = b0 ++ b1 := by
  simp only [beNat, List.foldl]
  rw [ofNat_append_byte 8, ofNat_first_byte]

theorem ofNat_beNat_octet (b0 b1 b2 b3 b4 b5 b6 b7 : Byte) :
    BitVec.ofNat 64 (beNat [b0, b1, b2, b3, b4, b5, b6, b7]) = b0 ++ b1 ++ b2 ++ b3 ++ b4 ++ b5 ++ b6 ++ b7 := by
  simp only [beNat, List.foldl]
  rw [ofNat_append_byte 56, ofNat_append_byte 48, ofNat_append_byte 40, ofNat_append_byte 32, ofNat_append_byte 24,
    ofNat_append_byte 16, ofNat_append_byte 8, ofNat_first_byte]

theorem ofNat_leNat_pair (b0 b1 : Byte) : BitVec.ofNat 16 (leNat [b0, b1]) = b1 ++ b0 := by
  have hreverse : leNat [b0, b1] = beNat [b1, b0] := (beNat_eq_leNat_reverse [b1, b0]).symm
  rw [hreverse, ofNat_beNat_pair]

/-! ### The header image and its parse (R72, R75) -/

theorem bytesBe_half (v : Half) : bytesBe 2 v.toNat = [v.extractLsb' 8 8, v.extractLsb' 0 8] := by
  rw [bytesBe, bytesLe_toNat]
  rfl

theorem bytesBe_word64 (v : Word64) :
    bytesBe 8 v.toNat =
      [v.extractLsb' 56 8, v.extractLsb' 48 8, v.extractLsb' 40 8, v.extractLsb' 32 8,
        v.extractLsb' 24 8, v.extractLsb' 16 8, v.extractLsb' 8 8, v.extractLsb' 0 8] := by
  rw [bytesBe, bytesLe_toNat]
  rfl

theorem bytesLe_half (v : Half) : bytesLe 2 v.toNat = [v.extractLsb' 0 8, v.extractLsb' 8 8] := by
  rw [bytesLe_toNat]
  rfl

/-- The checksum is the one field whose bytes follow `HOST_ORDER` (R72). -/
theorem orderedBytes_half (o : ByteOrder) (v : Half) :
    orderedBytes o 2 v.toNat =
      match o with
      | .be => [v.extractLsb' 8 8, v.extractLsb' 0 8]
      | .le => [v.extractLsb' 0 8, v.extractLsb' 8 8] := by
  cases o with
  | be => exact bytesBe_half v
  | le => exact bytesLe_half v

/-- The three numbers of a header and its four keyword bytes keep all that the sixteen bytes say (R75). -/
theorem headerImage_parseHeader (o : ByteOrder) {bs : Bytes} (h : bs.length = 16) :
    headerImage o (parseHeader o bs) = bs := by
  have hop : bytesBe 2 (parseHeader o bs).op.toNat = slice bs 0 2 :=
    orderedBytes_ofNat_orderedNat .be (by simp [slice, h]) (by rfl)
  have hcsum : orderedBytes o 2 (parseHeader o bs).csum.toNat = slice bs 2 2 :=
    orderedBytes_ofNat_orderedNat o (by simp [slice, h]) (by rfl)
  have hlen : bytesBe 8 (parseHeader o bs).len.toNat = slice bs 8 8 :=
    orderedBytes_ofNat_orderedNat .be (by simp [slice, h]) (by rfl)
  rw [headerImage, hop, hcsum, hlen]
  match bs, h with
  | [_, _, _, _, _, _, _, _, _, _, _, _, _, _, _, _], _ => rfl

/-! ### The decoder on a header image (R71, R74, R81) -/

theorem decode_headerImage (o : ByteOrder) (h : Header) : decode o .pkt (headerImage o h) = decodeOperation h := by
  simp only [decode, Laws.headerImage_length, Config.headerBytes, if_true, parseHeader_headerImage]

theorem decodeOperation_encrypt (csum : Half) (key : Keyword) (len : Word64) :
    decodeOperation { op := 0#16, csum := csum, key := key, len := len } = .ok (.pktEncrypt csum key len) := rfl

theorem decodeOperation_decrypt (csum : Half) (key : Keyword) (len : Word64) :
    decodeOperation { op := 1#16, csum := csum, key := key, len := len } = .ok (.pktDecrypt csum key len) := rfl

theorem decode_encode (o : ByteOrder) (i : Instr) : decode o i.format (encode o i) = .ok i := by
  cases i with
  | nop | clear | recv | gen | verify | enc | dec | send | serve => rfl
  | pktEncrypt csum key len => exact (decode_headerImage o _).trans (decodeOperation_encrypt csum key len)
  | pktDecrypt csum key len => exact (decode_headerImage o _).trans (decodeOperation_decrypt csum key len)

/-- A table word that spells the encoding of an instruction in the hardware's byte order decodes to it (log 14). -/
theorem decodeTableWord_of_encode {nbits w : Nat} {i : Instr} (hformat : tableFormat nbits = some i.format)
    (hbytes : tableBytes nbits w = encode Config.hardware.hostOrder i) : decodeTableWord nbits w = some i := by
  simp only [decodeTableWord, hformat, hbytes, decode_encode, Except.toOption]

/-- A header whose operation is neither 0 nor 1 is no instruction (R81). -/
theorem decodeTableWord_of_other_operation {w : Nat} {h : Header}
    (hbytes : tableBytes 128 w = headerImage Config.hardware.hostOrder h) (h0 : h.op ≠ 0#16) (h1 : h.op ≠ 1#16) :
    decodeTableWord 128 w = none := by
  have hformat : tableFormat 128 = some .pkt := rfl
  simp only [decodeTableWord, hformat, hbytes, decode_headerImage, decodeOperation, h0, h1, if_false, Except.toOption]

/-- A code above `SERVE`'s is reserved (R79). -/
theorem decodeTableWord_of_reserved {w : Nat} (h : 8 < w % 256) : decodeTableWord 8 w = none := by
  have hcode : 8 < (BitVec.ofNat 8 w).toNat := by rwa [BitVec.toNat_ofNat]
  have hdecode : decode Config.hardware.hostOrder .cmd (tableBytes 8 w) = decodeCommand (BitVec.ofNat 8 w) := rfl
  have hformat : tableFormat 8 = some .cmd := rfl
  simp only [decodeTableWord, hformat, hdecode, Machine.decodeCommand_of_reserved hcode, Except.toOption]

end Sys2Proof

namespace Sys2Proof.Proofs

open Sys2Proof.Machine

/-- Settles O1: a command is its code, and a packet header is read back field by field from its image. -/
theorem decodeEncodeAgree : Obligations.DecodeEncodeAgree := decode_encode

/-- Settles O2: each number's bytes are its bits eight at a time, in the order R72 gives the field. -/
theorem headerImageBytes : Obligations.HeaderImageBytes := by
  refine ⟨fun s => rfl, fun o h => ?_⟩
  rw [headerImage, bytesBe_half, orderedBytes_half, bytesBe_word64]
  rfl

/-- Settles O3: the fields are the numbers of their slices, and numbers and bytes are inverse to one another. -/
theorem headerParseInverse : Obligations.HeaderParseInverse := by
  refine ⟨?fields, parseHeader_headerImage, fun o bs h => headerImage_parseHeader o h⟩
  intro o b0 b1 b2 b3 b4 b5 b6 b7 b8 b9 b10 b11 b12 b13 b14 b15
  rw [← ofNat_beNat_pair b0, ← ofNat_beNat_octet b8]
  cases o with
  | be =>
    rw [← ofNat_beNat_pair b2]
    rfl
  | le =>
    rw [← ofNat_leNat_pair b2]
    rfl

/-- Settles O4: the words are the encodings of R71 and R78, a reserved code, and a header with operation 2. -/
theorem specWordsDecode : Obligations.SpecWordsDecode := by
  refine ⟨decodeTableWord_of_encode rfl rfl, decodeTableWord_of_encode rfl rfl, decodeTableWord_of_encode rfl rfl,
    decodeTableWord_of_reserved (by decide), decodeTableWord_of_encode rfl (by decide),
    decodeTableWord_of_encode rfl (by decide), ?other⟩
  case other =>
    exact decodeTableWord_of_other_operation
      (h := { op := 2#16, csum := 0x85e1#16, key := ⟨0x61#8, 0x62#8, 0x63#8, 0x64#8⟩, len := 21#64 })
      (by decide) (by decide) (by decide)

end Sys2Proof.Proofs
end

section
/-! The encoding family, second part: every turn answers a next state (R84, R206, R210). -/

namespace Sys2Proof.Machine

theorem regWrite_answers (r : Nat) (v : Word64) (s : State) : ∃ t, regWrite r v s = .next t := by
  unfold regWrite
  split
  · exact issueCommand_answers _ s
  · cases writeRegister r v s with
    | none => exact ⟨_, rfl⟩
    | some t => exact ⟨_, rfl⟩

theorem hostAccess_answers (a : Access) (s : State) : ∃ t, hostAccess a s = .next t := by
  cases a with
  | regRead r => exact ⟨_, rfl⟩
  | regWrite r v => exact regWrite_answers r v s
  | payRead a => exact ⟨_, rfl⟩
  | payWrite a b => exact ⟨_, rfl⟩

theorem takeTurn_answers (turn : Turn) (s : State) : ∃ t, takeTurn turn s = .next t := by
  cases turn with
  | host a => exact hostAccess_answers a s
  | engine => exact ⟨_, engineTurn_eq_engineRun s⟩
  | wait | link | reset | setPace => exact ⟨_, rfl⟩

end Sys2Proof.Machine

namespace Sys2Proof.Proofs

open Sys2Proof.Machine

/-- Settles O7: every arm of every agent's turn is a next state, the fetched instruction's included. -/
theorem stepAlwaysAnswers : Obligations.StepAlwaysAnswers := by
  intro s
  cases hagenda : s.agenda with
  | nil => exact ⟨_, (step_of_agenda_nil hagenda).trans (engineTurn_eq_engineRun s)⟩
  | cons turn rest =>
    rw [step_of_agenda_cons hagenda]
    exact takeTurn_answers turn _

end Sys2Proof.Proofs
end

section
/-! The encoding family, third part: what `SERVE` leaves once it has a good packet's header, whichever instruction fetched
it (R74, R157, R158, R185 to R187, R207). -/

namespace Sys2Proof.Machine

/-! ### The payload a state holds (R51) -/

theorem payload_eq_of_payloadIs {s : State} {p : Bytes} (hpay : payloadIs s.pay p) (hsize : s.payloadSize = p.length) :
    s.payload = p := by
  rw [State.payload, hsize]
  exact payBytes_eq s p hpay

/-! ### The walk of a transform (R156) -/

theorem isLower_lower (c : Byte) : isLower (lower c) = isLetter c := by
  unfold isLetter lower
  cases hupper : isUpper c with
  | false => rfl
  | true =>
    simp only [isUpper, Bool.and_eq_true, decide_eq_true_eq] at hupper
    have hcode : (BitVec.ofNat 8 (c.toNat + 32)).toNat = c.toNat + 32 := by
      rw [BitVec.toNat_ofNat]
      omega
    simp only [isLower, if_true, hcode, Bool.true_or, Bool.and_eq_true, decide_eq_true_eq]
    omega

/-- The keyword position advances at letters and nowhere else (R154, R155). -/
theorem direction_byte_advances (d : Direction) (c k : Byte) : (d.byte c k).2 = isLetter c := by
  rw [← isLower_lower]
  cases d with
  | encrypt => cases h : isLower (lower c) <;> simp [Direction.byte, encByte, h]
  | decrypt => cases h : isLower (lower c) <;> simp [Direction.byte, decByte, h]

theorem walk_position (d : Direction) (key : Keyword) (j : BitVec 2) (p : Bytes) :
    (walk d.byte key j p).2 = j + BitVec.ofNat 2 (letterCount p) := by
  induction p generalizing j with
  | nil => simp [walk, letterCount]
  | cons c rest ih =>
    have hcount : letterCount (c :: rest) = letterCount rest + if isLetter c then 1 else 0 := List.countP_cons
    rw [walk, ih, hcount, direction_byte_advances]
    cases isLetter c with
    | false => rfl
    | true => simp [BitVec.ofNat_add, BitVec.add_assoc, BitVec.add_comm]

theorem walk_bytes (d : Direction) (key : Keyword) (p : Bytes) :
    (walk d.byte key 0#2 p).1 = transformPayload d p key := by
  cases d <;> rfl

theorem transformPayload_length (d : Direction) (p : Bytes) (key : Keyword) :
    (transformPayload d p key).length = p.length := by
  rw [← walk_bytes, walk_length]

/-- The transform phase writes the transformed payload over the payload, whose every byte it has then written. -/
theorem phaseXform_payload (d : Direction) (s : State) :
    (phaseXform d s).payload = transformPayload d s.payload s.key := by
  refine payload_eq_of_payloadIs ?_ ?_
  · rw [phaseXform_pay, walk_bytes]
    exact payloadIs_writeBytes _ _
  · rw [transformPayload_length, payload_length]
    rfl

theorem phaseXform_kidx_eq (d : Direction) (s : State) :
    (phaseXform d s).kidx = BitVec.ofNat 2 (letterCount s.payload) := by
  rw [phaseXform_kidx, walk_position, BitVec.zero_add]

/-! ### From the verified packet to the response (R185, R186) -/

theorem verdict_eq_none {o : ByteOrder} {h : Header} {p : Bytes} (hgood : verdict o h p = none) :
    cksum o (checksumImage o h p) = h.csum ∧ keyValid h.key = true := by
  unfold verdict at hgood
  split_ifs at hgood with hsum hop hkey
  exact ⟨not_not.mp hsum, Bool.eq_true_of_not_eq_false hkey⟩

/-- `SERVE`'s `VERIFYING` step on a good packet: the checksum matches, and the operation opens its transform. -/
theorem verifyStep_of_good {s : State} {d : Direction} (hseq : s.seq = true) (hvok : (phaseVerify s).vok = true)
    (hkey : keyValid s.key = true) (hop : operation s.op = some d) :
    verifyStep s = { phaseVerify s with state := d.state } := by
  rcases verifyStep_cases s with ⟨hother, _⟩ | ⟨_, hother, _⟩ | ⟨_, _, e⟩
  · simp [hseq] at hother
  · exact absurd hvok (by rw [hother]; decide)
  · rw [e]
    rcases dispatch_cases (phaseVerify s) with ⟨hother, _⟩ | ⟨_, _, hother, _⟩ | ⟨d', hop', _, e⟩
    · simp [hop] at hother
    · simp [hkey] at hother
    · obtain rfl : d' = d := by simpa [hop] using hop'.symm
      exact e

theorem engineStep_of_verifying {s : State} (hstate : s.state = .verifying) : engineStep s = some (verifyStep s) := by
  simp only [engineStep, hstate]

theorem engineStep_of_transforming {s : State} {d : Direction} (hstate : s.state = d.state) :
    engineStep s = some (xformStep d s) := by
  cases d <;> simp only [engineStep, hstate, Direction.state]

theorem engineStep_of_summing {s : State} (hstate : s.state = .summing) : engineStep s = some (sumStep s) := by
  simp only [engineStep, hstate]

theorem runEngine_of_step {s t : State} (h : engineStep s = some t) (k : Nat) :
    runEngine (k + 1) s = runEngine k t := by
  simp only [runEngine, h]

/-- Three engine steps after `VERIFYING`: the packet verified and transformed, its checksum recomputed, the send next. -/
def responded (d : Direction) (s : State) : State :=
  { phaseSum (phaseXform d (phaseVerify s)) with state := .sending }

/-- A phase does not look at `STATE`, so the step before it does not matter to what it computes. -/
theorem xformStep_of_state (d : Direction) (s : State) (q : SeqState) :
    xformStep d { s with state := q } = { phaseXform d s with state := .summing } := rfl

theorem sumStep_of_seq {s : State} (hseq : s.seq = true) (q : SeqState) :
    sumStep { s with state := q } = { phaseSum s with state := .sending } := by
  simp only [sumStep, phaseSum_seq, hseq, if_true]
  rfl

theorem runEngine_verifying {s : State} {d : Direction} (hstate : s.state = .verifying) (hseq : s.seq = true)
    (hvok : (phaseVerify s).vok = true) (hkey : keyValid s.key = true) (hop : operation s.op = some d) (k : Nat) :
    runEngine (k + 3) s = runEngine k (responded d s) := by
  have hkept : (phaseXform d (phaseVerify s)).seq = true := by simp [hseq]
  rw [runEngine_of_step (engineStep_of_verifying hstate), verifyStep_of_good hseq hvok hkey hop,
    runEngine_of_step (engineStep_of_transforming rfl), xformStep_of_state,
    runEngine_of_step (engineStep_of_summing rfl), sumStep_of_seq hkept, responded]

section
variable {s : State} {p : Bytes}

theorem phaseVerify_payload (hpay : payloadIs s.pay p) (hsize : s.payloadSize = p.length) :
    (phaseVerify s).payload = p := by
  refine payload_eq_of_payloadIs ?_ ?_
  · rwa [phaseVerify_pay]
  · rwa [State.payloadSize, phaseVerify_len]

theorem transformed_payload (d : Direction) (hpay : payloadIs s.pay p) (hsize : s.payloadSize = p.length) :
    (phaseXform d (phaseVerify s)).payload = transformPayload d p s.key := by
  rw [phaseXform_payload, phaseVerify_payload hpay hsize, phaseVerify_key]

theorem responded_pay (d : Direction) (hpay : payloadIs s.pay p) (hsize : s.payloadSize = p.length) :
    (responded d s).pay = s.pay.writeBytes 0 (transformPayload d p s.key) := by
  simp only [responded, phaseSum_pay, phaseXform_pay, walk_bytes, phaseVerify_payload hpay hsize, phaseVerify_key,
    phaseVerify_pay]

theorem responded_kidx (d : Direction) (hpay : payloadIs s.pay p) (hsize : s.payloadSize = p.length) :
    (responded d s).kidx = BitVec.ofNat 2 (letterCount p) := by
  simp only [responded, phaseSum_kidx, phaseXform_kidx_eq, phaseVerify_payload hpay hsize]

theorem summedImage_eq_checksumImage (s : State) :
    s.summedImage = checksumImage s.params.hostOrder s.header s.payload := rfl

/-- What the `SUMMING` step covers is the request's header and the transformed payload (R121, R129). -/
theorem transformed_summedImage (d : Direction) (hpay : payloadIs s.pay p) (hsize : s.payloadSize = p.length) :
    (phaseXform d (phaseVerify s)).summedImage =
      checksumImage s.params.hostOrder s.header (transformPayload d p s.key) := by
  rw [summedImage_eq_checksumImage, transformed_payload d hpay hsize]
  simp only [State.header, phaseXform_op, phaseXform_csum, phaseXform_key, phaseXform_len, phaseXform_params,
    phaseVerify_op, phaseVerify_csum, phaseVerify_key, phaseVerify_len, phaseVerify_params]

theorem responded_sum (d : Direction) (hpay : payloadIs s.pay p) (hsize : s.payloadSize = p.length) :
    (responded d s).sum =
      accumulate s.params.hostOrder (checksumImage s.params.hostOrder s.header (transformPayload d p s.key)) := by
  simp only [responded, phaseSum_sum, transformed_summedImage d hpay hsize, phaseXform_params, phaseVerify_params]

theorem responded_header (d : Direction) (hpay : payloadIs s.pay p) (hsize : s.payloadSize = p.length) :
    (responded d s).header = responseHeader s.params.hostOrder d s.header p := by
  simp only [responded, State.header, responseHeader, phaseSum_op, phaseSum_csum, phaseSum_key, phaseSum_len,
    transformed_summedImage d hpay hsize, phaseXform_op, phaseXform_key, phaseXform_len, phaseXform_params,
    phaseVerify_op, phaseVerify_key, phaseVerify_len, phaseVerify_params]

/-- The `SENDING` step transmits the response (R105, R185). -/
theorem responded_packetImage (d : Direction) (hpay : payloadIs s.pay p) (hsize : s.payloadSize = p.length) :
    (responded d s).packetImage = response s.params.hostOrder d s.header p := by
  have hpayload : (responded d s).payload = transformPayload d p s.key := by
    refine payload_eq_of_payloadIs ?_ ?_
    · rw [responded_pay d hpay hsize]
      exact payloadIs_writeBytes _ _
    · simpa [transformPayload_length, responded, State.payloadSize] using hsize
  have hparams : (responded d s).params = s.params := by simp [responded]
  rw [State.packetImage, State.hdr, hpayload, responded_header d hpay hsize, hparams]
  rfl

end

/-! ### The `SENDING` step by the LINK's answer (R58, R105, R187) -/

theorem sendStep_of_ok {s : State} {plan : List TxAnswer} (hconn : s.conn = true) (hplan : s.txPlan = .ok :: plan) :
    sendStep s = some (afterSend { draw s with txlog := s.txlog ++ s.packetImage, txPlan := plan }) := by
  simp [sendStep, txPut, hconn, hplan]

theorem afterSend_of_seq {s : State} (hseq : s.seq = true) :
    afterSend s = { closeLink s with state := .closed, seq := false } :=
  if_pos hseq

theorem sendStep_of_fail {s : State} {n : Nat} {plan : List TxAnswer} (hconn : s.conn = true)
    (hplan : s.txPlan = .fail n :: plan) :
    sendStep s = some (reject .txFail
      { draw s with txlog := s.txlog ++ s.packetImage.take (failedCount n s.packetImage), txPlan := plan }) := by
  simp [sendStep, txPut, hconn, hplan]

theorem failedCount_lt {n : Nat} {bs : Bytes} (h : bs ≠ []) : failedCount n bs < bs.length := by
  have hpos : 0 < bs.length := List.length_pos_of_ne_nil h
  unfold failedCount
  omega

/-- How `SERVE`, begun in `s`, stands in `SENDING` before the LINK has answered: the response to the packet of header `h`
and payload `p` is what it sends. -/
structure SendsResponse (d : Direction) (h : Header) (p rest : Bytes) (s r : State) : Prop where
  ready : responseReady d h p rest s r
  image : r.packetImage = response s.params.hostOrder d h p
  state : r.state = .sending
  seq : r.seq = true
  conn : r.conn = true
  err : r.err = s.err
  txlog : r.txlog = s.txlog
  txPlan : r.txPlan = s.txPlan

section
variable {d : Direction} {h : Header} {p rest : Bytes} {s r : State}

theorem SendsResponse.runEngine_of_ok (hr : SendsResponse d h p rest s r) {plan : List TxAnswer}
    (hplan : s.txPlan = .ok :: plan) (k : Nat) : servedFrom d h p rest plan s (runEngine (k + 1) r) := by
  have hstep : engineStep r = some
      { closeLink { draw r with txlog := r.txlog ++ r.packetImage, txPlan := plan } with
        state := .closed, seq := false } := by
    rw [engineStep_of_sending hr.state, sendStep_of_ok hr.conn (hr.txPlan.trans hplan)]
    exact congrArg some (afterSend_of_seq hr.seq)
  rw [runEngine_of_step hstep, runEngine_of_held rfl, hr.image, hr.txlog]
  exact ⟨hr.ready, rfl, rfl, rfl, hr.err, rfl, rfl⟩

theorem SendsResponse.runEngine_of_fail (hr : SendsResponse d h p rest s r) {n : Nat} {plan : List TxAnswer}
    (hplan : s.txPlan = .fail n :: plan) (k : Nat) : sendFailedFrom d h p rest plan s (runEngine (k + 1) r) := by
  have hstep := (engineStep_of_sending hr.state).trans (sendStep_of_fail hr.conn (hr.txPlan.trans hplan))
  have hproper : failedCount n r.packetImage < r.packetImage.length := failedCount_lt (packetImage_ne_nil r)
  rw [runEngine_of_step hstep, runEngine_of_held rfl, hr.txlog]
  rw [hr.image] at hproper ⊢
  obtain ⟨hpacket, hsum, hkidx, hvok, hrxcsum, hrxq, _, hsame⟩ := hr.ready
  exact ⟨⟨hpacket, hsum, hkidx, hvok, hrxcsum, hrxq, rfl, hsame⟩, ⟨rfl, rfl, rfl, rfl⟩, ⟨_, hproper, rfl⟩, rfl⟩

theorem SendsResponse.runEngine_of_hold (hr : SendsResponse d h p rest s r) (hplan : s.txPlan = []) (k : Nat) :
    sendHeldFrom d h p rest s (runEngine k r) := by
  have hnone : r.txPlan = [] := hr.txPlan.trans hplan
  have hheld : engineStep r = none :=
    (engineStep_of_sending hr.state).trans ((sendStep_eq_none_iff r).mpr ⟨hr.conn, hnone⟩)
  rw [runEngine_of_held hheld]
  exact ⟨hr.ready, hr.state, hr.seq, hr.conn, hr.err, hr.txlog, hnone, hheld⟩

/-- The rest of the run is the LINK's choice (R58). -/
theorem SendsResponse.outcomes (hr : SendsResponse d h p rest s r) (k : Nat) :
    serveOutcomes d h p rest s (.next (runEngine (k + 1) r)) :=
  ⟨fun _ hplan => ⟨_, rfl, hr.runEngine_of_ok hplan k⟩, fun _ _ hplan => ⟨_, rfl, hr.runEngine_of_fail hplan k⟩,
    fun hplan => ⟨_, rfl, hr.runEngine_of_hold hplan _⟩⟩

end

/-! ### A good packet from its header on -/

/-- After the second receive step of `SERVE`: the packet of header `h` and payload `p` is loaded, and `rest` is what the
stream still holds (R100). -/
def packetLoaded (h : Header) (p rest : Bytes) (s : State) : State :=
  { headerLoaded h rest s with pay := s.pay.writeBytes 0 p, hdrTaken := false, state := .verifying }

section
variable {d : Direction} {h : Header} {p rest : Bytes} {s : State}

theorem engineStep_of_payload_arrived (hstate : s.state = .receiving) (hseq : s.seq = true)
    (hlen : h.len.toNat = 16 + p.length) :
    engineStep (headerLoaded h (p ++ rest) s) = some (packetLoaded h p rest s) := by
  have hsize : (headerLoaded h (p ++ rest) s).payloadSize = p.length := Nat.sub_eq_of_eq_add' hlen
  have hrxq : (headerLoaded h (p ++ rest) s).rxq = p ++ rest := rfl
  have hnext : (if (headerLoaded h (p ++ rest) s).seq then SeqState.verifying else .idle) = .verifying := if_pos hseq
  have harrived : (headerLoaded h (p ++ rest) s).payloadSize ≤ (headerLoaded h (p ++ rest) s).rxq.length := by
    simp [hsize, hrxq]
  rw [engineStep_of_payload (s := headerLoaded h (p ++ rest) s) hstate rfl, recvPayloadStep_of_arrived harrived, hsize,
    hrxq, hnext, List.take_left, List.drop_left]
  rfl

theorem packetLoaded_payloadIs : payloadIs (packetLoaded h p rest s).pay p := payloadIs_writeBytes s.pay p

theorem packetLoaded_payloadSize (hlen : h.len.toNat = 16 + p.length) :
    (packetLoaded h p rest s).payloadSize = p.length :=
  Nat.sub_eq_of_eq_add' hlen

/-- The checksum of the packet that was received is the one its header carries (R131). -/
theorem packetLoaded_vok (hlen : h.len.toNat = 16 + p.length) (hgood : verdict s.params.hostOrder h p = none) :
    (phaseVerify (packetLoaded h p rest s)).vok = true := by
  have hpayload : (packetLoaded h p rest s).payload = p :=
    payload_eq_of_payloadIs packetLoaded_payloadIs (packetLoaded_payloadSize hlen)
  have hheader : (packetLoaded h p rest s).header = h := rfl
  have hparams : (packetLoaded h p rest s).params = s.params := rfl
  have hcsum : (packetLoaded h p rest s).csum = h.csum := rfl
  obtain ⟨hsum, _⟩ := verdict_eq_none hgood
  rw [phaseVerify_vok, summedImage_eq_checksumImage, hpayload, hheader, hparams, hcsum]
  exact decide_eq_true hsum

theorem responded_packetLoaded_ready (d : Direction) (hlen : h.len.toNat = 16 + p.length)
    (hgood : verdict s.params.hostOrder h p = none) :
    responseReady d h p rest s (responded d (packetLoaded h p rest s)) := by
  have hpay : payloadIs (packetLoaded h p rest s).pay p := packetLoaded_payloadIs
  have hsize : (packetLoaded h p rest s).payloadSize = p.length := packetLoaded_payloadSize hlen
  have hwritten : (responded d (packetLoaded h p rest s)).pay =
      (s.pay.writeBytes 0 p).writeBytes 0 (transformPayload d p h.key) := responded_pay d hpay hsize
  refine ⟨⟨responded_header d hpay hsize, ?payload, ?kept⟩, responded_sum d hpay hsize, responded_kidx d hpay hsize,
    ?vok, ?rxcsum, ?rxq, ?hdrTaken, ?surroundings⟩
  case payload =>
    rw [hwritten]
    exact payloadIs_writeBytes _ _
  case kept =>
    intro a ha
    rw [hwritten, payloadKeptFrom_writeBytes (Nat.le_refl _) _ a ha]
    exact payloadKeptFrom_writeBytes (transformPayload_length d p h.key).ge s.pay a ha
  case vok => simpa [responded] using packetLoaded_vok hlen hgood
  case rxcsum | rxq | hdrTaken => simp [responded, packetLoaded, headerLoaded]
  case surroundings => simp [sameSurroundings, responded, packetLoaded, headerLoaded]

theorem responded_packetLoaded_sends (d : Direction) (hseq : s.seq = true) (hconn : s.conn = true)
    (hlen : h.len.toNat = 16 + p.length) (hgood : verdict s.params.hostOrder h p = none) :
    SendsResponse d h p rest s (responded d (packetLoaded h p rest s)) where
  ready := responded_packetLoaded_ready d hlen hgood
  image := responded_packetImage d packetLoaded_payloadIs (packetLoaded_payloadSize hlen)
  state := rfl
  seq := by simpa [responded, packetLoaded, headerLoaded] using hseq
  conn := by simpa [responded, packetLoaded, headerLoaded] using hconn
  err := by simp [responded, packetLoaded, headerLoaded]
  txlog := by simp [responded, packetLoaded, headerLoaded]
  txPlan := by simp [responded, packetLoaded, headerLoaded]

/-- What is left of `SERVE` once it has loaded the header of a good packet whose payload has arrived: payload, verify,
transform, sum and send (R185). -/
theorem runEngine_headerLoaded_serves (hstate : s.state = .receiving) (hseq : s.seq = true) (hconn : s.conn = true)
    (hlen : h.len.toNat = 16 + p.length) (hop : operation h.op = some d)
    (hgood : verdict s.params.hostOrder h p = none) (k : Nat) :
    serveOutcomes d h p rest s (.next (runEngine (k + 5) (headerLoaded h (p ++ rest) s))) := by
  obtain ⟨_, hkey⟩ := verdict_eq_none hgood
  have hrun : runEngine (k + 4) (packetLoaded h p rest s) = runEngine (k + 1) (responded d (packetLoaded h p rest s)) :=
    runEngine_verifying (s := packetLoaded h p rest s) rfl hseq (packetLoaded_vok hlen hgood) hkey hop (k + 1)
  rw [runEngine_of_step (engineStep_of_payload_arrived hstate hseq hlen), hrun]
  exact (responded_packetLoaded_sends d hseq hconn hlen hgood).outcomes k

/-- A packet operation is what `SERVE` does from the header on, run to the send in one turn (R74). -/
theorem servePacket_serves (hstate : s.state = .receiving) (hseq : s.seq = true) (hhdr : s.hdrTaken = false)
    (hconn : s.conn = true) (hpace : s.pace = .merged) (hlen : h.len.toNat = 16 + p.length)
    (hmax : p.length ≤ s.params.maxPayload) (hrxq : s.rxq = p ++ rest) (hop : operation h.op = some d)
    (hgood : verdict s.params.hostOrder h p = none) :
    serveOutcomes d h p rest s (.next (servePacket h s)) := by
  have hlengthOk : lengthOk (loadHeader h { s with vok := false }) := by
    constructor
    · show 16 ≤ h.len.toNat
      omega
    · show h.len.toNat - 16 ≤ s.params.maxPayload
      omega
  have hloaded : acceptHeader h s = headerLoaded h (p ++ rest) s := by
    rw [acceptHeader_of_lengthOk hlengthOk, ← hrxq]
    rfl
  have hrun : servePacket h s = runEngine 6 (headerLoaded h (p ++ rest) s) := by
    have hadvance : servePacket h s = advance (acceptHeader h s) :=
      if_pos ((awaitsPacket_iff s).mpr ⟨hstate, hseq, hhdr, hconn⟩)
    have hmerged : (headerLoaded h (p ++ rest) s).pace = .merged := hpace
    rw [hadvance, hloaded, advance, hmerged]
    rfl
  rw [hrun]
  exact runEngine_headerLoaded_serves hstate hseq hconn hlen hop hgood 1

end

end Sys2Proof.Machine

namespace Sys2Proof.Proofs

open Sys2Proof.Machine

/-- Settles O36: the two packet operations are the same run, with the transform that the operation field selects. -/
theorem packetOperationsServe : Obligations.PacketOperationsServe := by
  intro s csum key len p rest hstate hseq hhdr hconn hpace hlen hmax hrxq
  constructor
  · exact servePacket_serves (h := { op := 0#16, csum := csum, key := key, len := len }) hstate hseq hhdr hconn hpace
      hlen hmax hrxq rfl
  · exact servePacket_serves (h := { op := 1#16, csum := csum, key := key, len := len }) hstate hseq hhdr hconn hpace
      hlen hmax hrxq rfl

end Sys2Proof.Proofs
end

section
/-! The codec family: `RECV` and `SEND` run to their ends, and the ways a receive fails (R100 to R107). -/

namespace Sys2Proof

/-- The length register of a parsed header is the number its eight bytes stand for: eight bytes fit it (R75). -/
theorem parseHeader_take_len (o : ByteOrder) {w : Bytes} (hlen : 16 ≤ w.length) :
    (parseHeader o (w.take 16)).len.toNat = beNat (slice w 8 8) := by
  have hslice : slice (w.take 16) 8 8 = slice w 8 8 := by simp [slice, List.drop_take]
  have hbytes : (slice w 8 8).length = 8 := by
    rw [slice, List.length_take, List.length_drop]
    omega
  have hfits : beNat (slice w 8 8) < 256 ^ 8 := by
    have hlt := orderedNat_lt .be (slice w 8 8)
    rwa [hbytes] at hlt
  rw [parseHeader, hslice, BitVec.toNat_ofNat]
  exact Nat.mod_eq_of_lt hfits

/-- Bytes whose length field counts them are the image of a packet: the header they parse to, and the rest as payload
(R72, R75). -/
theorem exists_packet (o : ByteOrder) {w : Bytes} (hlow : 16 ≤ w.length) (hlen : beNat (slice w 8 8) = w.length) :
    ∃ h p, w = headerImage o h ++ p ∧ h.len.toNat = 16 + p.length := by
  refine ⟨parseHeader o (w.take 16), w.drop 16, ?image, ?length⟩
  case image => rw [headerImage_parseHeader o (List.length_take_of_le hlow), List.take_append_drop]
  case length =>
    rw [parseHeader_take_len o hlow, hlen, List.length_drop]
    omega

end Sys2Proof

namespace Sys2Proof.Machine

/-! ### The length check by its verdict (R182) -/

theorem checkLen_of_short {s : State} (hlow : s.len.toNat < 16) : checkLen s = some .badLen := by
  rcases checkLen_cases s with ⟨_, e⟩ | ⟨hother, _⟩ | ⟨⟨hother, _⟩, _⟩
  · exact e
  · omega
  · omega

theorem checkLen_of_tooBig {s : State} (hlow : 16 ≤ s.len.toNat) (hbig : s.params.maxPayload < s.len.toNat - 16) :
    checkLen s = some .tooBig := by
  rcases checkLen_cases s with ⟨hother, _⟩ | ⟨_, _, e⟩ | ⟨⟨_, hother⟩, _⟩
  · omega
  · exact e
  · omega

/-! ### Merged runs of one and of two steps (R180) -/

/-- A rejection ends the command, so a run whose first step rejects has taken that step. -/
theorem advance_of_step_rejected {s t : State} {c : Cause} (hpace : s.pace = .merged)
    (hstep : engineStep s = some (reject c t)) : advance s = reject c t :=
  advance_of_step_held hpace hstep rfl

theorem advance_of_two_steps_held {s t u : State} (hpace : s.pace = .merged) (hfirst : engineStep s = some t)
    (hsecond : engineStep t = some u) (hheld : engineStep u = none) : advance s = u := by
  have hrun : advance s = runEngine 6 s := by simp only [advance, hpace, longestRun]
  rw [hrun, runEngine_of_step hfirst, runEngine_of_step hsecond, runEngine_of_held hheld]

/-! ### The receive phase by what arrives (R100, R102) -/

/-- A header whose length does not pass is loaded all the same, and then rejected (R100, R102). -/
theorem engineStep_of_header_refused {s : State} {h : Header} {rest : Bytes} {c : Cause} (hstate : s.state = .receiving)
    (hhdr : s.hdrTaken = false) (hconn : s.conn = true) (hrxq : s.rxq = headerImage s.params.hostOrder h ++ rest)
    (hcheck : checkLen (loadHeader h s) = some c) :
    engineStep s = some (reject c (loadHeader h { s with rxq := rest, vok := false })) := by
  have himage : (headerImage s.params.hostOrder h).length = 16 := Laws.headerImage_length _ h
  have hlen : 16 ≤ s.rxq.length := by simp [hrxq]
  have hrefused : checkLen (loadHeader h { s with rxq := rest, vok := false }) = some c := hcheck
  rw [engineStep_of_header hstate hhdr, recvHeaderStep_of_arrived hconn hlen, hrxq, List.take_left' himage,
    List.drop_left' himage, parseHeader_headerImage]
  simp only [acceptHeader, checked, hrefused]

theorem engineStep_of_payload_ended {s : State} {h : Header} {rest : Bytes} (hstate : s.state = .receiving)
    (hshort : rest.length < h.len.toNat - 16) (heof : s.rxeof = true) :
    engineStep (headerLoaded h rest s) =
      some (reject .rxFail
        { headerLoaded h rest s with
          rxq := rest.drop (Config.lostBytes s.draws), draws := s.draws + 1
          pay := s.pay.forgetBelow (h.len.toNat - 16) }) :=
  (engineStep_of_payload (s := headerLoaded h rest s) hstate rfl).trans
    (recvPayloadStep_of_ended (s := headerLoaded h rest s) hshort heof)

/-- How `RECV` leaves the block: the packet of header `h` and payload `p` loaded, `rest` still in the stream, and the
command ended (R103). -/
def packetReceived (h : Header) (p rest : Bytes) (s : State) : State := { packetLoaded h p rest s with state := .idle }

section
variable {h : Header} {p rest : Bytes} {s : State}

/-- Outside `SERVE` the payload's arrival ends the command (R103, R189). -/
theorem engineStep_of_payload_received (hstate : s.state = .receiving) (hseq : s.seq = false)
    (hlen : h.len.toNat = 16 + p.length) :
    engineStep (headerLoaded h (p ++ rest) s) = some (packetReceived h p rest s) := by
  have hsize : (headerLoaded h (p ++ rest) s).payloadSize = p.length := Nat.sub_eq_of_eq_add' hlen
  have hrxq : (headerLoaded h (p ++ rest) s).rxq = p ++ rest := rfl
  have hnext : (if (headerLoaded h (p ++ rest) s).seq then SeqState.verifying else .idle) = .idle :=
    if_neg (Bool.eq_false_iff.mp hseq)
  have harrived : (headerLoaded h (p ++ rest) s).payloadSize ≤ (headerLoaded h (p ++ rest) s).rxq.length := by
    simp [hsize, hrxq]
  rw [engineStep_of_payload (s := headerLoaded h (p ++ rest) s) hstate rfl, recvPayloadStep_of_arrived harrived, hsize,
    hrxq, hnext, List.take_left, List.drop_left]
  rfl

/-- `RECV` takes a delivered packet in its two receive steps and ends (R103). -/
theorem exec_recv_of_delivered (hidle : idleNow s) (hpace : s.pace = .merged) (hconn : s.conn = true)
    (hlen : h.len.toNat = 16 + p.length) (hmax : p.length ≤ s.params.maxPayload)
    (hrxq : s.rxq = headerImage s.params.hostOrder h ++ p ++ rest) :
    exec .recv s = .next (packetReceived h p rest s) := by
  obtain ⟨hstate, hseq⟩ := hidle
  have harrived : (openReceive s).rxq = headerImage (openReceive s).params.hostOrder h ++ (p ++ rest) := by
    simpa using hrxq
  have hheader : engineStep (openReceive s) = some (headerLoaded h (p ++ rest) (openReceive s)) :=
    engineStep_of_header_arrived rfl rfl hconn harrived (by omega) (by rw [openReceive_params]; omega)
  have hpayload : engineStep (headerLoaded h (p ++ rest) (openReceive s)) =
      some (packetReceived h p rest (openReceive s)) :=
    engineStep_of_payload_received rfl hseq hlen
  rw [exec_recv_of_idle hstate, advance_of_two_steps_held (s := openReceive s) hpace hheader hpayload rfl]
  rfl

theorem packetReceived_holdsPacket : holdsPacket h p s (packetReceived h p rest s) :=
  ⟨rfl, payloadIs_writeBytes s.pay p, payloadKeptFrom_writeBytes (Nat.le_refl _) s.pay⟩

theorem packetReceived_payload (hlen : h.len.toNat = 16 + p.length) : (packetReceived h p rest s).payload = p :=
  payload_eq_of_payloadIs (payloadIs_writeBytes s.pay p) (Nat.sub_eq_of_eq_add' hlen)

theorem packetReceived_lengthOk (hlen : h.len.toNat = 16 + p.length) (hmax : p.length ≤ s.params.maxPayload) :
    lengthOk (packetReceived h p rest s) := by
  constructor
  · show 16 ≤ h.len.toNat
    omega
  · show h.len.toNat - 16 ≤ s.params.maxPayload
    omega

/-- What is received is what a `SEND` would transmit (R105, R107). -/
theorem packetReceived_packetImage (hlen : h.len.toNat = 16 + p.length) :
    (packetReceived h p rest s).packetImage = headerImage s.params.hostOrder h ++ p := by
  rw [State.packetImage, packetReceived_payload hlen]
  rfl

end

/-! ### `SEND` by the LINK's answer (R105, R106) -/

section
variable {s : State}

theorem packetImage_length (hlen : lengthOk s) : s.packetImage.length = s.len.toNat := by
  have hsize : s.payloadSize = s.len.toNat - 16 := rfl
  obtain ⟨hlow, _⟩ := hlen
  rw [State.packetImage, List.length_append, State.hdr, Laws.headerImage_length, payload_length, hsize]
  omega

theorem sendStep_of_closed (hconn : s.conn = false) : sendStep s = some (reject .txFail s) := by
  simp [sendStep, hconn]

theorem exec_send_of_idle (hidle : s.state = .idle) (hlen : lengthOk s) :
    exec .send s = .next (advance { s with state := .sending }) := by
  refine congrArg Host.Outcome.next ((acceptCommand_of_idle hidle _).trans ?_)
  simp only [checked, (checkLen_eq_none s).mpr hlen]

/-- `SEND` is its one step: whatever the LINK answers to it, the command has ended. -/
theorem exec_send_of_sendStep {t : State} (hidle : s.state = .idle) (hpace : s.pace = .merged) (hlen : lengthOk s)
    (hstep : sendStep { s with state := .sending } = some t) (hheld : engineStep t = none) :
    exec .send s = .next t := by
  have hfirst : engineStep { s with state := .sending } = some t := (engineStep_of_sending rfl).trans hstep
  rw [exec_send_of_idle hidle hlen, advance_of_step_held (s := { s with state := .sending }) hpace hfirst hheld]

/-- A `SEND` that the LINK accepts ends in `IDLE` again, with the link as it was (R106). -/
theorem exec_send_of_ok {plan : List TxAnswer} (hidle : idleNow s) (hpace : s.pace = .merged) (hlen : lengthOk s)
    (hconn : s.conn = true) (hplan : s.txPlan = .ok :: plan) :
    exec .send s =
      .next { s with txlog := s.txlog ++ s.packetImage, txPlan := plan, draws := s.draws + 1 } := by
  obtain ⟨hstate, hseq⟩ := hidle
  refine exec_send_of_sendStep hstate hpace hlen ?_ (by simp only [engineStep, hstate])
  rw [sendStep_of_ok (s := { s with state := .sending }) hconn hplan, afterSend, if_neg (by simp [hseq]), ← hstate]
  rfl

end

end Sys2Proof.Machine

namespace Sys2Proof.Proofs

open Sys2Proof.Machine

/-- Settles O33: the two receive steps write the registers of the header, the payload and `VOK`, and nothing else. -/
theorem recvLoadsPacket : Obligations.RecvLoadsPacket := by
  intro s h p rest hidle hpace hconn hlen hmax hrxq
  have hsame : sameSurroundings s (packetReceived h p rest s) := ⟨rfl, rfl, rfl, rfl, rfl, rfl⟩
  exact ⟨_, exec_recv_of_delivered hidle hpace hconn hlen hmax hrxq, packetReceived_holdsPacket, rfl, rfl, rfl, rfl, rfl,
    rfl, rfl, rfl, rfl, rfl, rfl, rfl, rfl, hsame⟩

/-- Settles O34: `SEND` is its one step, which the LINK's answer decides. -/
theorem sendOutcomes : Obligations.SendOutcomes := by
  intro s plan hidle hpace hlen
  have ⟨hstate, _⟩ := hidle
  refine ⟨fun hconn hplan => exec_send_of_ok hidle hpace hlen hconn hplan, fun p hconn hplan => ?fails,
    fun hconn => ?closed, fun hconn hplan => ?held⟩
  case fails =>
    have hproper : failedCount p s.packetImage < s.packetImage.length := failedCount_lt (packetImage_ne_nil s)
    rw [packetImage_length hlen] at hproper
    exact ⟨_, hproper, exec_send_of_sendStep hstate hpace hlen
      (sendStep_of_fail (s := { s with state := .sending }) hconn hplan) rfl⟩
  case closed =>
    exact exec_send_of_sendStep hstate hpace hlen (sendStep_of_closed (s := { s with state := .sending }) hconn) rfl
  case held =>
    have hheld : engineStep { s with state := .sending } = none :=
      (engineStep_eq_none_iff _).mpr (.inr (.inr (.inr ⟨rfl, hconn, hplan⟩)))
    rw [exec_send_of_idle hstate hlen, advance_of_held hheld]

/-- Settles O41: every failure but the one inside the payload is the rejection of the first receive step, and that one
is the rejection of the second. -/
theorem failedReceiveLeaves : Obligations.FailedReceiveLeaves := by
  intro s i hi hidle hpace
  obtain ⟨hstate, _⟩ := hidle
  obtain ⟨seq, hexec⟩ := exec_receive_of_idle hi hstate
  have hfirst {c : Cause} {t : State} (hstep : engineStep (openReceive { s with seq := seq }) = some (reject c t)) :
      exec i s = .next (reject c t) :=
    hexec.trans (congrArg Host.Outcome.next (advance_of_step_rejected hpace hstep))
  refine ⟨fun hconn => ?closed, fun hconn hshort heof => ?inHeader, fun h rest hconn hrxq => ⟨fun hlow => ?badLen,
    fun hlow hbig => ?tooBig, fun hlow hhigh hshort heof => ?inPayload⟩⟩
  case closed =>
    exact ⟨_, hfirst (recvHeaderStep_of_closed hconn), ⟨rfl, rfl, rfl, rfl⟩, rfl, rfl, rfl, rfl, rfl, rfl, rfl⟩
  case inHeader =>
    obtain ⟨k, hk, hdrop⟩ := exists_drop_lt hshort (Config.lostBytes s.draws)
    exact ⟨_, hfirst (recvHeaderStep_of_ended hconn hshort heof), ⟨rfl, rfl, rfl, rfl⟩, rfl, rfl, rfl,
      ⟨k, by omega, hdrop⟩, rfl, rfl, rfl⟩
  case badLen =>
    exact ⟨_, hfirst (engineStep_of_header_refused rfl rfl hconn hrxq (checkLen_of_short hlow)),
      ⟨rfl, rfl, rfl, rfl⟩, rfl, rfl, rfl, rfl, rfl, rfl, rfl⟩
  case tooBig =>
    exact ⟨_, hfirst (engineStep_of_header_refused rfl rfl hconn hrxq (checkLen_of_tooBig hlow hbig)),
      ⟨rfl, rfl, rfl, rfl⟩, rfl, rfl, rfl, rfl, rfl, rfl, rfl⟩
  case inPayload =>
    have hheader := engineStep_of_header_arrived (s := openReceive { s with seq := seq }) rfl rfl hconn hrxq hlow hhigh
    have hpayload := engineStep_of_payload_ended (s := openReceive { s with seq := seq }) rfl hshort heof
    obtain ⟨k, hk, hdrop⟩ := exists_drop_lt hshort (Config.lostBytes s.draws)
    rw [advance_of_two_steps_held (s := openReceive { s with seq := seq }) hpace hheader hpayload rfl] at hexec
    exact ⟨_, hexec, ⟨rfl, rfl, rfl, rfl⟩, rfl, rfl, payloadKeptFrom_forgetBelow _ _, ⟨k, hk, hdrop⟩, rfl, rfl, rfl⟩

/-- Settles O60: the bytes received are the image of a packet, `RECV` loads that packet, and its image is what `SEND`
transmits. -/
theorem receiveThenSendIsByteExact : Obligations.ReceiveThenSendIsByteExact := by
  intro s w rest plan hidle hpace hconn hlow hmax hcount hrxq hplan
  have ⟨_, hseq⟩ := hidle
  obtain ⟨h, p, rfl, hlen⟩ := exists_packet s.params.hostOrder hlow hcount
  have hfits : p.length ≤ s.params.maxPayload := by simpa using hmax
  have hsent := exec_send_of_ok (s := packetReceived h p rest s) ⟨rfl, hseq⟩ hpace
    (packetReceived_lengthOk hlen hfits) hconn hplan
  rw [packetReceived_packetImage hlen] at hsent
  exact ⟨_, _, exec_recv_of_delivered hidle hpace hconn hlen hfits hrxq, hsent, rfl, rfl, rfl, hconn⟩

end Sys2Proof.Proofs
end

section
/-! The checksum family, first part: end-around-carry addition and the folds as residues modulo all ones (R123 to R126,
R132, R133). -/

namespace Sys2Proof.Machine

/-! ### Residues modulo all ones -/

/-- The residue of `t` modulo `m` on the values 0 to `m`, where `m` stands for 0 unless `t` is 0 (R132, R133). -/
def onesResidue (m t : Nat) : Nat := if t = 0 then 0 else (t - 1) % m + 1

section
variable {m n a b t : Nat}

theorem onesResidue_eq_zero_iff (m t : Nat) : onesResidue m t = 0 ↔ t = 0 := by
  unfold onesResidue
  split_ifs with h <;> simp [h]

theorem onesResidue_le (hm : 0 < m) (t : Nat) : onesResidue m t ≤ m := by
  unfold onesResidue
  split_ifs
  · exact Nat.zero_le m
  · exact Nat.mod_lt (t - 1) hm

theorem onesResidue_of_le (h : t ≤ m) : onesResidue m t = t := by
  unfold onesResidue
  split_ifs with h0
  · exact h0.symm
  · rw [Nat.mod_eq_of_lt (by omega)]
    omega

theorem onesResidue_modEq (m t : Nat) : onesResidue m t ≡ t [MOD m] := by
  unfold onesResidue
  split_ifs with h0
  · rw [h0]
  · have hsucc : t - 1 + 1 = t := by omega
    have hmod : (t - 1) % m + 1 ≡ t - 1 + 1 [MOD m] := (Nat.mod_modEq (t - 1) m).add_right 1
    rwa [hsucc] at hmod

/-- The residue is decided by the class modulo `m` and by being 0. -/
theorem onesResidue_congr (hmod : a ≡ b [MOD m]) (hzero : a = 0 ↔ b = 0) : onesResidue m a = onesResidue m b := by
  unfold onesResidue
  by_cases ha : a = 0
  · rw [if_pos ha, if_pos (hzero.mp ha)]
  · have hb : b ≠ 0 := fun h => ha (hzero.mpr h)
    have hpred : a - 1 ≡ b - 1 [MOD m] := by
      apply Nat.ModEq.add_right_cancel' 1
      rwa [Nat.sub_add_cancel (Nat.pos_of_ne_zero ha), Nat.sub_add_cancel (Nat.pos_of_ne_zero hb)]
    rw [if_neg ha, if_neg hb, hpred]

/-- A value up to `m` in the same class is the residue. -/
theorem eq_onesResidue (hle : a ≤ m) (hmod : a ≡ t [MOD m]) (hzero : a = 0 ↔ t = 0) : a = onesResidue m t :=
  (onesResidue_of_le hle).symm.trans (onesResidue_congr hmod hzero)

theorem onesResidue_add_left (m a b : Nat) : onesResidue m (onesResidue m a + b) = onesResidue m (a + b) := by
  refine onesResidue_congr ((onesResidue_modEq m a).add_right b) ?_
  rw [Nat.add_eq_zero_iff, Nat.add_eq_zero_iff, onesResidue_eq_zero_iff]

/-- Folding a residue modulo a multiple of `m` further down loses nothing. -/
theorem onesResidue_onesResidue (h : m ∣ n) (t : Nat) : onesResidue m (onesResidue n t) = onesResidue m t :=
  onesResidue_congr ((onesResidue_modEq n t).of_dvd h) (onesResidue_eq_zero_iff n t)

/-- Adding the carry out of `m + 1` back in gives the residue: one carry back is enough for a sum of two digits. -/
theorem carry_back_eq_onesResidue (hm : 0 < m) (ht : t ≤ 2 * m) : t % (m + 1) + t / (m + 1) = onesResidue m t := by
  rcases Nat.lt_or_ge t (m + 1) with hlow | hhigh
  · rw [Nat.mod_eq_of_lt hlow, Nat.div_eq_of_lt hlow, onesResidue_of_le (Nat.le_of_lt_succ hlow), Nat.add_zero]
  · have hcarry : t / (m + 1) = 1 := Nat.div_eq_of_lt_le (by omega) (by omega)
    have hrest : t % (m + 1) = t - (m + 1) := by
      rw [Nat.mod_eq_sub_mod hhigh, Nat.mod_eq_of_lt (by omega)]
    have hdiff : t - (t - (m + 1) + 1) = m := by omega
    have hmod : t - (m + 1) + 1 ≡ t [MOD m] := (Nat.modEq_iff_dvd' (by omega)).mpr (by rw [hdiff])
    rw [hrest, hcarry]
    exact eq_onesResidue (by omega) hmod (by omega)

/-- The digit sum in base `m + 1` keeps the residue. -/
theorem onesResidue_digits (m hi lo : Nat) : onesResidue m (hi + lo) = onesResidue m (hi * (m + 1) + lo) := by
  refine onesResidue_congr ?_ (by simp)
  have hbase : hi * (m + 1) + lo = hi + lo + m * hi := by ring
  rw [hbase]
  exact (Nat.add_mul_mod_self_left (hi + lo) m hi).symm

end

/-! ### End-around-carry addition (R123) -/

theorem add_lt_right_iff (s w : Word64) : s + w < w ↔ 2 ^ 64 ≤ s.toNat + w.toNat := by
  rw [BitVec.lt_def, BitVec.toNat_add]
  omega

theorem eac64_toNat (s w : Word64) :
    (eac64 s w).toNat =
      if 2 ^ 64 ≤ s.toNat + w.toNat then s.toNat + w.toNat - 2 ^ 64 + 1 else s.toNat + w.toNat := by
  unfold eac64
  by_cases hcarry : 2 ^ 64 ≤ s.toNat + w.toNat
  · rw [if_pos ((add_lt_right_iff s w).mpr hcarry), if_pos hcarry, BitVec.toNat_add, BitVec.toNat_add,
      BitVec.toNat_ofNat]
    omega
  · rw [if_neg (mt (add_lt_right_iff s w).mp hcarry), if_neg hcarry, BitVec.toNat_add]
    omega

theorem eac64_toNat_eq_onesResidue (s w : Word64) :
    (eac64 s w).toNat = onesResidue (2 ^ 64 - 1) (s.toNat + w.toNat) := by
  rw [eac64_toNat, ← carry_back_eq_onesResidue (by omega) (by omega)]
  split_ifs <;> omega

/-- Adding words one after the other is the residue of their plain sum (R132). -/
theorem foldl_eac64_toNat (ws : List Word64) (s : Word64) :
    (ws.foldl eac64 s).toNat = onesResidue (2 ^ 64 - 1) (s.toNat + (ws.map BitVec.toNat).sum) := by
  induction ws generalizing s with
  | nil => exact (onesResidue_of_le (Nat.le_pred_of_lt s.isLt)).symm
  | cons w ws ih =>
    rw [List.foldl_cons, ih, eac64_toNat_eq_onesResidue, onesResidue_add_left, List.map_cons, List.sum_cons,
      Nat.add_assoc]

theorem foldl_eac64_zero_toNat (ws : List Word64) :
    (ws.foldl eac64 0#64).toNat = onesResidue (2 ^ 64 - 1) (ws.map BitVec.toNat).sum := by
  rw [foldl_eac64_toNat, BitVec.toNat_ofNat, Nat.zero_mod, Nat.zero_add]

/-! ### The folds and the checksum (R124 to R126, R128) -/

theorem fold32_toNat (s : Word64) : (fold32 s).toNat = onesResidue (2 ^ 32 - 1) s.toNat := by
  have hparts : s.toNat / 2 ^ 32 % 2 ^ 32 * (2 ^ 32 - 1 + 1) + s.toNat % 2 ^ 32 = s.toNat := by omega
  have hsum := carry_back_eq_onesResidue (m := 2 ^ 32 - 1) (t := s.toNat / 2 ^ 32 % 2 ^ 32 + s.toNat % 2 ^ 32)
    (by omega) (by omega)
  rw [onesResidue_digits, hparts] at hsum
  have hle := onesResidue_le (m := 2 ^ 32 - 1) (by omega) s.toNat
  simp only [fold32, BitVec.extractLsb'_toNat, Nat.shiftRight_eq_div_pow, Nat.pow_zero, Nat.div_one,
    BitVec.toNat_ofNat]
  omega

theorem fold16_toNat (s : Word32) : (fold16 s).toNat = onesResidue (2 ^ 16 - 1) s.toNat := by
  have hparts : s.toNat / 2 ^ 16 % 2 ^ 16 * (2 ^ 16 - 1 + 1) + s.toNat % 2 ^ 16 = s.toNat := by omega
  have hsum := carry_back_eq_onesResidue (m := 2 ^ 16 - 1) (t := s.toNat / 2 ^ 16 % 2 ^ 16 + s.toNat % 2 ^ 16)
    (by omega) (by omega)
  rw [onesResidue_digits, hparts] at hsum
  have hle := onesResidue_le (m := 2 ^ 16 - 1) (by omega) s.toNat
  simp only [fold16, BitVec.extractLsb'_toNat, Nat.shiftRight_eq_div_pow, Nat.pow_zero, Nat.div_one,
    BitVec.toNat_ofNat]
  omega

theorem finish_toNat (s : Word64) : (finish s).toNat = 65535 - onesResidue 65535 s.toNat := by
  rw [finish, BitVec.toNat_not, fold16_toNat, fold32_toNat, onesResidue_onesResidue (by norm_num)]
  rfl

/-- The checksum is the complement of the residue of the plain sum of the words (R133). -/
theorem cksum_toNat (o : ByteOrder) (m : Bytes) :
    (cksum o m).toNat = 65535 - onesResidue 65535 ((imageWords o m).map BitVec.toNat).sum := by
  rw [cksum, finish_toNat, accumulate, foldl_eac64_zero_toNat, onesResidue_onesResidue (by norm_num)]

end Sys2Proof.Machine

namespace Sys2Proof.Proofs

open Sys2Proof.Machine

/-- Settles O45: the carry test compares the wrapped sum with an addend, which it falls below exactly on a carry. -/
theorem endAroundCarryValue : Obligations.EndAroundCarryValue :=
  fun s w => ⟨add_lt_right_iff s w, eac64_toNat s w⟩

/-- Settles O46: each fold adds the two digits of its argument in base 2^32 or 2^16, and the carry back. -/
theorem foldsKeepResidue : Obligations.FoldsKeepResidue := ⟨fold32_toNat, fold16_toNat⟩

/-- Settles O47: by induction on the words, and a plain sum has no order. -/
theorem accumulatorIsResidue : Obligations.AccumulatorIsResidue := by
  refine ⟨fun o m => foldl_eac64_zero_toNat (imageWords o m), fun ws ws' hperm => ?_⟩
  have hsum : (ws.map BitVec.toNat).sum = (ws'.map BitVec.toNat).sum := (hperm.map BitVec.toNat).sum_eq
  apply BitVec.eq_of_toNat_eq
  rw [foldl_eac64_zero_toNat, foldl_eac64_zero_toNat, hsum]

end Sys2Proof.Proofs
end

section
/-! The checksum family, second part: the pieces of an image, and the image as a sum of 16-bit words, which is what its
checksum sees of it (R122, R127, R133). -/

namespace Sys2Proof.Machine

/-! ### The pieces cover the image (R127) -/

theorem octets_flatten (k : Nat) (bs : Bytes) : (octets k bs).flatten = bs.take (8 * k) := by
  induction k generalizing bs with
  | zero => simp [octets]
  | succ k ih => rw [octets, List.flatten_cons, ih, Nat.mul_succ, Nat.add_comm, List.take_add]

theorem octets_lengths (k : Nat) {bs : Bytes} (h : 8 * k ≤ bs.length) :
    (octets k bs).map List.length = List.replicate k 8 := by
  induction k generalizing bs with
  | zero => rfl
  | succ k ih =>
    have hrest : 8 * k ≤ (bs.drop 8).length := by
      rw [List.length_drop]
      omega
    rw [octets, List.map_cons, ih hrest, List.length_take_of_le (by omega), List.replicate_succ]

theorem pieceOf_append_afterPiece (k : Nat) (bs : Bytes) : (pieceOf k bs).flatten ++ afterPiece k bs = bs := by
  unfold pieceOf afterPiece
  split_ifs <;> simp

theorem pieceOf_lengths (k : Nat) (bs : Bytes) : ((pieceOf k bs).map List.length).Sublist [k] := by
  unfold pieceOf
  split_ifs with h
  · simp [h]
  · exact List.nil_sublist [k]

/-- Each test of R127 halves what can be left. -/
theorem afterPiece_length_lt {k : Nat} {bs : Bytes} (h : bs.length < 2 * k) : (afterPiece k bs).length < k := by
  unfold afterPiece
  split_ifs
  · rw [List.length_drop]
    omega
  · omega

theorem remainderPieces_flatten {bs : Bytes} (h : bs.length < 8) : (remainderPieces bs).flatten = bs := by
  have hrest : (afterPiece 1 (afterPiece 2 (afterPiece 4 bs))).length < 1 :=
    afterPiece_length_lt (afterPiece_length_lt (afterPiece_length_lt h))
  have hnil : afterPiece 1 (afterPiece 2 (afterPiece 4 bs)) = [] := List.length_eq_zero_iff.mp (Nat.lt_one_iff.mp hrest)
  have hlast := pieceOf_append_afterPiece 1 (afterPiece 2 (afterPiece 4 bs))
  rw [hnil, List.append_nil] at hlast
  rw [remainderPieces, List.flatten_append, List.flatten_append, hlast, List.append_assoc, pieceOf_append_afterPiece,
    pieceOf_append_afterPiece]

theorem remainderPieces_lengths (bs : Bytes) : ((remainderPieces bs).map List.length).Sublist [4, 2, 1] := by
  rw [remainderPieces, List.map_append, List.map_append]
  exact ((pieceOf_lengths 4 bs).append (pieceOf_lengths 2 _)).append (pieceOf_lengths 1 _)

theorem payloadPieces_flatten (bs : Bytes) : (payloadPieces bs).flatten = bs := by
  have hshort : (bs.drop (8 * (bs.length / 8))).length < 8 := by
    rw [List.length_drop]
    omega
  rw [payloadPieces, List.flatten_append, octets_flatten, remainderPieces_flatten hshort, List.take_append_drop]

theorem payloadPieces_lengths (bs : Bytes) :
    ∃ k r, (payloadPieces bs).map List.length = List.replicate k 8 ++ r ∧ r.Sublist [4, 2, 1] := by
  refine ⟨bs.length / 8, _, ?_, remainderPieces_lengths (bs.drop (8 * (bs.length / 8)))⟩
  rw [payloadPieces, List.map_append, octets_lengths _ (Nat.mul_div_le _ _)]

theorem imagePieces_flatten (m : Bytes) : (imagePieces m).flatten = m := by
  have hhead : m.drop 16 = (m.drop 8).drop 8 := by rw [List.drop_drop]
  rw [imagePieces, List.flatten_cons, List.flatten_cons, payloadPieces_flatten, slice, slice, hhead,
    List.take_append_drop, List.drop_zero, List.take_append_drop]

theorem imagePieces_lengths {m : Bytes} (h : 16 ≤ m.length) :
    ∃ k r, (imagePieces m).map List.length = List.replicate k 8 ++ r ∧ r.Sublist [4, 2, 1] := by
  have hfirst : (slice m 0 8).length = 8 := List.length_take_of_le (by rw [List.length_drop]; omega)
  have hsecond : (slice m 8 8).length = 8 := List.length_take_of_le (by rw [List.length_drop]; omega)
  obtain ⟨k, r, hlengths, hr⟩ := payloadPieces_lengths (m.drop 16)
  refine ⟨k + 2, r, ?_, hr⟩
  rw [imagePieces, List.map_cons, List.map_cons, hfirst, hsecond, hlengths]
  rfl

/-- A piece of odd length is one byte, and nothing comes after it. -/
theorem imagePieces_even {m : Bytes} (h : 16 ≤ m.length) :
    (imagePieces m).Pairwise (fun piece _ => Even piece.length) ∧
      ∀ piece ∈ imagePieces m, piece.length ≤ 8 ∧ (Even piece.length ∨ piece.length = 1) := by
  obtain ⟨k, r, hlengths, hr⟩ := imagePieces_lengths h
  have hrest : r.Pairwise (fun n _ => Even n) := List.Pairwise.sublist hr (by decide)
  have hall : ∀ n ∈ [8, 4, 2, 1], n ≤ 8 ∧ (Even n ∨ n = 1) := by decide
  constructor
  · rw [← List.pairwise_map (R := fun n _ => Even n), hlengths, List.pairwise_append]
    refine ⟨List.pairwise_replicate.mpr (.inr (by decide)), hrest, fun n hn _ _ => ?_⟩
    rw [List.eq_of_mem_replicate hn]
    decide
  · intro piece hpiece
    have hmem : piece.length ∈ List.replicate k 8 ++ r := hlengths ▸ List.mem_map_of_mem hpiece
    refine hall _ ((List.mem_append.mp hmem).elim (fun hn => ?_) (fun hn => List.mem_cons_of_mem _ (hr.mem hn)))
    rw [List.eq_of_mem_replicate hn]
    exact List.mem_cons_self

/-! ### The sum of 16-bit words -/

/-- The plain sum of a byte sequence read two bytes at a time, a last odd byte alone: what the checksum sees of an
image. -/
def pairSum (o : ByteOrder) : Bytes → Nat
  | [] => 0
  | [b] => b.toNat
  | b :: c :: bs => orderedNat o [b, c] + pairSum o bs

theorem beNat_cons (b : Byte) (bs : Bytes) : beNat (b :: bs) = b.toNat * 256 ^ bs.length + beNat bs := by
  have hsnoc : leNat (bs.reverse ++ [b]) = leNat bs.reverse + 256 ^ bs.reverse.length * b.toNat := by
    induction bs.reverse with
    | nil => simp [leNat]
    | cons c cs ih =>
      rw [List.cons_append, leNat_cons, ih, leNat_cons, List.length_cons]
      ring
  rw [beNat_eq_leNat_reverse, beNat_eq_leNat_reverse, List.reverse_cons, hsnoc, List.length_reverse]
  ring

theorem orderedNat_be_pair (b c : Byte) : orderedNat .be [b, c] = b.toNat * 256 + c.toNat := by
  simp [orderedNat, beNat]

theorem orderedNat_le_pair (b c : Byte) : orderedNat .le [b, c] = b.toNat + 256 * c.toNat := by
  simp [orderedNat, leNat]

/-- Pairs of bytes in front of an even number of bytes add to the value in classes modulo 65535, since 65536 is in the
class of 1. -/
theorem orderedNat_cons_cons_modEq (o : ByteOrder) (b c : Byte) {bs : Bytes} (h : Even bs.length) :
    orderedNat o (b :: c :: bs) ≡ orderedNat o [b, c] + orderedNat o bs [MOD 65535] := by
  cases o with
  | be =>
    obtain ⟨k, hk⟩ := h
    have hpow : 256 ^ bs.length ≡ 1 [MOD 65535] := by
      rw [hk, ← Nat.mul_two, Nat.mul_comm, Nat.pow_mul]
      exact (show 256 ^ 2 ≡ 1 [MOD 65535] by decide).pow k |>.trans (by rw [Nat.one_pow])
    have hvalue : beNat (b :: c :: bs) = (b.toNat * 256 + c.toNat) * 256 ^ bs.length + beNat bs := by
      rw [beNat_cons, beNat_cons, List.length_cons]
      ring
    have hclass := (hpow.mul_left (b.toNat * 256 + c.toNat)).add_right (beNat bs)
    rw [← hvalue, Nat.mul_one] at hclass
    rwa [orderedNat_be_pair]
  | le =>
    have hvalue : leNat (b :: c :: bs) = b.toNat + 256 * c.toNat + leNat bs + 65535 * leNat bs := by
      rw [leNat_cons, leNat_cons]
      ring
    have hclass : leNat (b :: c :: bs) ≡ b.toNat + 256 * c.toNat + leNat bs [MOD 65535] := by
      rw [hvalue]
      exact Nat.add_mul_mod_self_left _ _ _
    rwa [orderedNat_le_pair]

theorem orderedNat_modEq_pairSum (o : ByteOrder) {bs : Bytes} (h : Even bs.length ∨ bs.length = 1) :
    orderedNat o bs ≡ pairSum o bs [MOD 65535] := by
  induction bs using pairSum.induct with
  | case1 => cases o <;> rfl
  | case2 b => cases o <;> simp [orderedNat, beNat, leNat, pairSum, Nat.ModEq]
  | case3 b c bs ih =>
    have heven : Even bs.length := by simpa [Nat.even_add_one] using h
    exact (orderedNat_cons_cons_modEq o b c heven).trans ((ih (.inl heven)).add_left _)

theorem pairSum_append (o : ByteOrder) {bs : Bytes} (h : Even bs.length) (cs : Bytes) :
    pairSum o (bs ++ cs) = pairSum o bs + pairSum o cs := by
  induction bs using pairSum.induct with
  | case1 => rw [List.nil_append, pairSum, Nat.zero_add]
  | case2 b => simp at h
  | case3 b c bs ih =>
    have heven : Even bs.length := by simpa [Nat.even_add_one] using h
    rw [List.cons_append, List.cons_append, pairSum, pairSum, ih heven, Nat.add_assoc]

/-! ### Only bytes that are all 0 sum to 0 -/

theorem byte_toNat_eq_zero_iff (b : Byte) : b.toNat = 0 ↔ b = 0#8 := by
  rw [← BitVec.toNat_inj]
  rfl

theorem leNat_eq_zero_iff (bs : Bytes) : leNat bs = 0 ↔ ∀ b ∈ bs, b = 0#8 := by
  induction bs with
  | nil => simp [leNat]
  | cons b bs ih =>
    rw [leNat_cons, List.forall_mem_cons, ← ih, ← byte_toNat_eq_zero_iff]
    omega

theorem orderedNat_eq_zero_iff (o : ByteOrder) (bs : Bytes) : orderedNat o bs = 0 ↔ ∀ b ∈ bs, b = 0#8 := by
  cases o with
  | be => simpa [orderedNat, beNat_eq_leNat_reverse] using leNat_eq_zero_iff bs.reverse
  | le => exact leNat_eq_zero_iff bs

theorem pairSum_eq_zero_iff (o : ByteOrder) (bs : Bytes) : pairSum o bs = 0 ↔ ∀ b ∈ bs, b = 0#8 := by
  induction bs using pairSum.induct with
  | case1 => simp [pairSum]
  | case2 b => simp [pairSum, byte_toNat_eq_zero_iff]
  | case3 b c bs ih =>
    rw [pairSum, Nat.add_eq_zero_iff, orderedNat_eq_zero_iff, ih]
    simp [and_assoc]

/-! ### The checksum is that of the 16-bit words -/

theorem word_toNat (o : ByteOrder) {bs : Bytes} (h : bs.length ≤ 8) : (word o bs).toNat = orderedNat o bs := by
  have hfits : orderedNat o bs < 256 ^ 8 := (orderedNat_lt o bs).trans_le (Nat.pow_le_pow_right (by omega) h)
  rw [word, BitVec.toNat_ofNat, Nat.mod_eq_of_lt (by omega)]

theorem sum_orderedNat_modEq_pairSum (o : ByteOrder) {pieces : List Bytes}
    (hchain : pieces.Pairwise (fun piece _ => Even piece.length))
    (hall : ∀ piece ∈ pieces, Even piece.length ∨ piece.length = 1) :
    (pieces.map (orderedNat o)).sum ≡ pairSum o pieces.flatten [MOD 65535] := by
  induction pieces with
  | nil => rfl
  | cons piece pieces ih =>
    rw [List.pairwise_cons] at hchain
    rw [List.forall_mem_cons] at hall
    obtain ⟨hhead, htail⟩ := hchain
    obtain ⟨hpiece, hrest⟩ := hall
    have hclass := (orderedNat_modEq_pairSum o hpiece).add (ih htail hrest)
    rw [List.map_cons, List.sum_cons, List.flatten_cons]
    cases pieces with
    | nil => simpa [pairSum] using hclass
    | cons next others => rwa [pairSum_append o (hhead next List.mem_cons_self)]

theorem imageWords_toNat (o : ByteOrder) {m : Bytes} (h : 16 ≤ m.length) :
    (imageWords o m).map BitVec.toNat = (imagePieces m).map (orderedNat o) := by
  obtain ⟨_, hall⟩ := imagePieces_even h
  rw [imageWords, List.map_map]
  exact List.map_congr_left fun piece hpiece => word_toNat o (hall piece hpiece).1

theorem sum_imageWords_modEq_pairSum (o : ByteOrder) {m : Bytes} (h : 16 ≤ m.length) :
    ((imageWords o m).map BitVec.toNat).sum ≡ pairSum o m [MOD 65535] := by
  obtain ⟨hchain, hall⟩ := imagePieces_even h
  have hclass := sum_orderedNat_modEq_pairSum o hchain fun piece hpiece => (hall piece hpiece).2
  rwa [imagePieces_flatten, ← imageWords_toNat o h] at hclass

theorem sum_imageWords_eq_zero_iff (o : ByteOrder) {m : Bytes} (h : 16 ≤ m.length) :
    ((imageWords o m).map BitVec.toNat).sum = 0 ↔ pairSum o m = 0 := by
  have hbytes : (∀ piece ∈ imagePieces m, ∀ b ∈ piece, b = 0#8) ↔ ∀ b ∈ m, b = 0#8 := by
    rw [← List.forall_mem_flatten, imagePieces_flatten]
  rw [pairSum_eq_zero_iff, imageWords_toNat o h, List.sum_eq_zero_iff, List.forall_mem_map, ← hbytes]
  exact forall₂_congr fun piece _ => orderedNat_eq_zero_iff o piece

/-- The checksum of an image is the complement of the residue of its sum of 16-bit words. -/
theorem cksum_toNat_eq_pairSum (o : ByteOrder) {m : Bytes} (h : 16 ≤ m.length) :
    (cksum o m).toNat = 65535 - onesResidue 65535 (pairSum o m) := by
  rw [cksum_toNat, onesResidue_congr (sum_imageWords_modEq_pairSum o h) (sum_imageWords_eq_zero_iff o h)]

end Sys2Proof.Machine

namespace Sys2Proof.Proofs

open Sys2Proof.Machine

/-- Settles O48: the octets take all but the last 0 to 7 bytes, and each test for the rest halves what can be left. -/
theorem piecesCoverImage : Obligations.PiecesCoverImage :=
  fun m h => ⟨imagePieces_flatten m, imagePieces_lengths h⟩

end Sys2Proof.Proofs
end

section
/-! The checksum family, third part: the laws of the checksum, read off the sum of 16-bit words (R133 to R136). -/

namespace Sys2Proof.Machine

/-! ### The checksum field in the sum (R72, R73) -/

theorem pairSum_of_length_two (o : ByteOrder) {bs : Bytes} (h : bs.length = 2) : pairSum o bs = orderedNat o bs := by
  match bs, h with
  | [_, _], _ => rfl

/-- The checksum field is one of the 16-bit words of a header image, so it adds its value to the sum. -/
theorem pairSum_headerImage_append (o : ByteOrder) (h : Header) (p : Bytes) :
    pairSum o (headerImage o h ++ p) =
      pairSum o (bytesBe 2 h.op.toNat) + h.csum.toNat + pairSum o (h.key.bytes ++ (bytesBe 8 h.len.toNat ++ p)) := by
  have hop : Even (bytesBe 2 h.op.toNat).length := by simp
  have hfield : Even (orderedBytes o 2 h.csum.toNat).length := by simp
  have hcsum : pairSum o (orderedBytes o 2 h.csum.toNat) = h.csum.toNat := by
    rw [pairSum_of_length_two o (Laws.orderedBytes_length o 2 _), orderedNat_orderedBytes]
    exact Nat.mod_eq_of_lt h.csum.isLt
  rw [headerImage, List.append_assoc, List.append_assoc, List.append_assoc, pairSum_append o hop,
    pairSum_append o hfield, hcsum, Nat.add_assoc]

theorem pairSum_unzeroed (o : ByteOrder) (h : Header) (p : Bytes) :
    pairSum o (headerImage o h ++ p) = pairSum o (checksumImage o h p) + h.csum.toNat := by
  rw [checksumImage, pairSum_headerImage_append, pairSum_headerImage_append, BitVec.toNat_ofNat, Nat.zero_mod,
    Nat.add_zero, Nat.add_right_comm]

/-- The bytes of `LEN` are not all 0. -/
theorem pairSum_checksumImage_ne_zero (o : ByteOrder) {h : Header} (hlen : 16 ≤ h.len.toNat) (p : Bytes) :
    pairSum o (checksumImage o h p) ≠ 0 := by
  intro hzero
  have hbytes : ∀ b ∈ bytesBe 8 h.len.toNat, b = 0#8 := fun b hb =>
    (pairSum_eq_zero_iff o _).mp hzero b (by simp [checksumImage, headerImage, hb])
  have hnat : beNat (bytesBe 8 h.len.toNat) = 0 := (orderedNat_eq_zero_iff .be _).mpr hbytes
  rw [beNat_bytesBe] at hnat
  omega

theorem checksumImage_length (o : ByteOrder) (h : Header) (p : Bytes) :
    (checksumImage o h p).length = 16 + p.length := by
  simp [checksumImage]

/-- A packet's sum is not 0, so neither is the residue that its checksum complements (R133). -/
theorem cksum_checksumImage_ne (o : ByteOrder) {h : Header} (hlen : 16 ≤ h.len.toNat) (p : Bytes) :
    cksum o (checksumImage o h p) ≠ 0xFFFF#16 := by
  intro heq
  have hvalue := cksum_toNat_eq_pairSum o (m := checksumImage o h p) (by rw [checksumImage_length]; omega)
  have hpos := mt (onesResidue_eq_zero_iff 65535 _).mp (pairSum_checksumImage_ne_zero o hlen p)
  rw [heq, BitVec.toNat_ofNat] at hvalue
  omega

/-- A sum and the complement of its residue together are all ones, whose complement is 0 (R135). -/
theorem cksum_unzeroed (o : ByteOrder) {h : Header} {p : Bytes} (hlen : 16 ≤ h.len.toNat)
    (hcsum : h.csum = cksum o (checksumImage o h p)) : cksum o (headerImage o h ++ p) = 0#16 := by
  have hvalid := cksum_toNat_eq_pairSum o (m := checksumImage o h p) (by rw [checksumImage_length]; omega)
  have hpos := pairSum_checksumImage_ne_zero o hlen p
  have hle : onesResidue 65535 (pairSum o (checksumImage o h p)) ≤ 65535 := onesResidue_le (by omega) _
  have hones : onesResidue 65535 (pairSum o (headerImage o h ++ p)) = 65535 := by
    rw [pairSum_unzeroed, ← onesResidue_add_left, hcsum, hvalid, Nat.add_sub_cancel' hle]
    rfl
  apply BitVec.eq_of_toNat_eq
  rw [cksum_toNat_eq_pairSum o (by simp), hones]
  rfl

/-! ### The two byte orders (R134) -/

/-- The number of the two bytes of `n` in the other order. -/
def swapBytes (n : Nat) : Nat := n % 256 * 256 + n / 256

theorem onesResidue_mul_256 {r : Nat} (h : r ≤ 65535) : onesResidue 65535 (256 * r) = swapBytes r := by
  refine (eq_onesResidue ?_ ?_ ?_).symm
  · unfold swapBytes
    omega
  · unfold swapBytes Nat.ModEq
    omega
  · unfold swapBytes
    omega

/-- Swapping the bytes of every word multiplies the sum by 256 modulo 65535. -/
theorem pairSum_le_modEq {bs : Bytes} (h : Even bs.length) : pairSum .le bs ≡ 256 * pairSum .be bs [MOD 65535] := by
  induction bs using pairSum.induct with
  | case1 => rfl
  | case2 b => simp at h
  | case3 b c bs ih =>
    have hrest := ih (by simpa [Nat.even_add_one] using h)
    rw [pairSum, pairSum, orderedNat_le_pair, orderedNat_be_pair]
    unfold Nat.ModEq at hrest ⊢
    omega

theorem cksum_le_toNat {m : Bytes} (hlow : 16 ≤ m.length) (heven : Even m.length) :
    (cksum .le m).toNat = swapBytes (cksum .be m).toNat := by
  have hle : onesResidue 65535 (pairSum .be m) ≤ 65535 := onesResidue_le (by omega) _
  have hzero : pairSum .le m = 0 ↔ 256 * onesResidue 65535 (pairSum .be m) = 0 := by
    rw [Nat.mul_eq_zero, onesResidue_eq_zero_iff, pairSum_eq_zero_iff, pairSum_eq_zero_iff]
    simp
  have hclass : pairSum .le m ≡ 256 * onesResidue 65535 (pairSum .be m) [MOD 65535] :=
    (pairSum_le_modEq heven).trans ((onesResidue_modEq 65535 _).mul_left 256).symm
  rw [cksum_toNat_eq_pairSum .le hlow, cksum_toNat_eq_pairSum .be hlow, onesResidue_congr hclass hzero,
    onesResidue_mul_256 hle]
  unfold swapBytes
  omega

theorem bytesLe_swapBytes {n : Nat} (h : n < 65536) : bytesLe 2 (swapBytes n) = bytesBe 2 n := by
  have hlow : BitVec.ofNat 8 (swapBytes n) = BitVec.ofNat 8 (n / 256) := by
    apply BitVec.eq_of_toNat_eq
    rw [BitVec.toNat_ofNat, BitVec.toNat_ofNat, swapBytes]
    omega
  have hdigit : swapBytes n / 256 = n % 256 := by
    unfold swapBytes
    omega
  have hhigh : BitVec.ofNat 8 (swapBytes n / 256) = BitVec.ofNat 8 n := by
    apply BitVec.eq_of_toNat_eq
    rw [hdigit, BitVec.toNat_ofNat, BitVec.toNat_ofNat, Nat.mod_mod]
  rw [bytesBe, bytesLe, bytesLe, bytesLe, hlow, hhigh]
  rfl

/-! ### One changed byte (R136) -/

theorem orderedNat_pair_weights (o : ByteOrder) :
    ∃ first second, (first = 1 ∨ first = 256) ∧ (second = 1 ∨ second = 256) ∧
      ∀ b c : Byte, orderedNat o [b, c] = first * b.toNat + second * c.toNat := by
  cases o with
  | be => exact ⟨256, 1, .inr rfl, .inl rfl, fun b c => by rw [orderedNat_be_pair]; omega⟩
  | le => exact ⟨1, 256, .inl rfl, .inr rfl, fun b c => by rw [orderedNat_le_pair]; omega⟩

/-- A byte counts once or 256 times in the sum, whatever its value is. -/
theorem pairSum_set (o : ByteOrder) {bs : Bytes} {i : Nat} (h : i < bs.length) :
    ∃ weight, (weight = 1 ∨ weight = 256) ∧
      ∀ b : Byte, pairSum o (bs.set i b) + weight * bs[i].toNat = pairSum o bs + weight * b.toNat := by
  induction bs using pairSum.induct generalizing i with
  | case1 => simp at h
  | case2 c =>
    obtain rfl : i = 0 := by simpa using h
    exact ⟨1, .inl rfl, fun b => by simp [pairSum, Nat.add_comm]⟩
  | case3 c d bs ih =>
    obtain ⟨first, second, hfirst, hsecond, hpair⟩ := orderedNat_pair_weights o
    match i with
    | 0 =>
      refine ⟨first, hfirst, fun b => ?_⟩
      simp only [List.set_cons_zero, List.getElem_cons_zero, pairSum, hpair]
      omega
    | 1 =>
      refine ⟨second, hsecond, fun b => ?_⟩
      simp only [List.set_cons_succ, List.set_cons_zero, List.getElem_cons_succ, List.getElem_cons_zero, pairSum, hpair]
      omega
    | i + 2 =>
      obtain ⟨weight, hweight, hset⟩ := ih (i := i) (by simpa using h)
      refine ⟨weight, hweight, fun b => ?_⟩
      have hb := hset b
      simp only [List.set_cons_succ, List.getElem_cons_succ, pairSum]
      omega

theorem pairSum_modEq_of_cksum_eq {o : ByteOrder} {m m' : Bytes} (hm : 16 ≤ m.length) (hm' : 16 ≤ m'.length)
    (h : cksum o m' = cksum o m) : pairSum o m' ≡ pairSum o m [MOD 65535] := by
  have hvalue := congrArg BitVec.toNat h
  rw [cksum_toNat_eq_pairSum o hm', cksum_toNat_eq_pairSum o hm] at hvalue
  have hle : onesResidue 65535 (pairSum o m) ≤ 65535 := onesResidue_le (by omega) _
  have hle' : onesResidue 65535 (pairSum o m') ≤ 65535 := onesResidue_le (by omega) _
  have hsame : onesResidue 65535 (pairSum o m') = onesResidue 65535 (pairSum o m) := by omega
  exact (onesResidue_modEq 65535 _).symm.trans (hsame ▸ onesResidue_modEq 65535 _)

/-- Two bytes differ by at most 255, so neither weight takes their difference to a multiple of 65535. -/
theorem cksum_set_ne (o : ByteOrder) {m : Bytes} {i : Nat} {b : Byte} (hlow : 16 ≤ m.length) (hi : i < m.length)
    (hb : m[i]? ≠ some b) : cksum o (m.set i b) ≠ cksum o m := by
  intro heq
  obtain ⟨weight, hweight, hset⟩ := pairSum_set o hi
  have hclass := pairSum_modEq_of_cksum_eq hlow (by rwa [List.length_set]) heq
  have hsum := hset b
  have hbytes : m[i].toNat = b.toNat := by
    unfold Nat.ModEq at hclass
    rcases hweight with rfl | rfl <;> omega
  exact hb (by rw [List.getElem?_eq_getElem hi, BitVec.eq_of_toNat_eq hbytes])

/-- One changed payload byte changes a packet's checksum. -/
theorem cksum_checksumImage_set_ne (o : ByteOrder) (h : Header) {p : Bytes} {a : Nat} {b : Byte} (ha : a < p.length)
    (hb : p[a]? ≠ some b) : cksum o (checksumImage o h (p.set a b)) ≠ cksum o (checksumImage o h p) := by
  have hlen : (headerImage o { h with csum := 0#16 }).length = 16 := Laws.headerImage_length _ _
  have hset : checksumImage o h (p.set a b) = (checksumImage o h p).set (16 + a) b := by
    rw [checksumImage, checksumImage, List.set_append_right _ _ (by omega), hlen, Nat.add_sub_cancel_left]
  have hbyte : (checksumImage o h p)[16 + a]? ≠ some b := by
    rwa [checksumImage, List.getElem?_append_right (by omega), hlen, Nat.add_sub_cancel_left]
  have hcount : (checksumImage o h p).length = 16 + p.length := checksumImage_length o h p
  rw [hset]
  exact cksum_set_ne o (by omega) (by omega) hbyte

end Sys2Proof.Machine

namespace Sys2Proof.Proofs

open Sys2Proof.Machine

/-- Settles O49: the value is the complement of the residue of the plain sum, which `LEN` keeps from being 0. -/
theorem checksumIsComplementedResidue : Obligations.ChecksumIsComplementedResidue := by
  refine ⟨?_, fun o h p hlen => cksum_checksumImage_ne o hlen p⟩
  intro o m total hpos
  rw [cksum_toNat, onesResidue, if_neg (Nat.ne_of_gt hpos)]

/-- Settles O50: swapping the bytes of every word swaps the bytes of the checksum, and the wire swaps them back. -/
theorem evenLengthIgnoresHostOrder : Obligations.EvenLengthIgnoresHostOrder := by
  intro m hlow heven
  rw [cksum_le_toNat hlow (Nat.even_iff.mpr heven)]
  exact (bytesLe_swapBytes (cksum .be m).isLt).symm

/-- Settles O51: the field left in place adds the complement of the residue to the sum. -/
theorem unzeroedFieldSumsToZero : Obligations.UnzeroedFieldSumsToZero :=
  fun o _ _ hlen hcsum => cksum_unzeroed o hlen hcsum

/-- Settles O52: the changed byte moves the sum by less than 65535, and not by 0. -/
theorem byteChangeChangesChecksum : Obligations.ByteChangeChangesChecksum :=
  fun o _ _ _ hlow hi hb => cksum_set_ne o hlow hi hb

end Sys2Proof.Proofs
end

section
/-! The checksum family, fourth part: `GEN` and `VERIFY` run to their ends, and what they see of the payload (R129 to
R131, R136). -/

namespace Sys2Proof.Machine

/-! ### The payload as the memory holds it (R51) -/

section
variable {s t : State}

theorem payloadIs_of_written (h : payloadWritten s) : payloadIs s.pay s.payload := by
  intro a ha
  have hsize : a < s.payloadSize := by rwa [payload_length] at ha
  obtain ⟨c, hc⟩ := Option.isSome_iff_exists.mp (h a hsize)
  have hbyte : s.payload[a]? = some (payByte s a) := by simp [State.payload, payBytes, hsize]
  rw [hbyte, hc, payByte_written s a c hc]

/-- Written bytes read the same at every access, so the payload is that of any state with the same `PAY` and `LEN`. -/
theorem payload_eq_of_written (h : payloadWritten s) (hpay : t.pay = s.pay) (hlen : t.len = s.len) :
    t.payload = s.payload := by
  refine payload_eq_of_payloadIs ?_ ?_
  · rw [hpay]
    exact payloadIs_of_written h
  · rw [payload_length, State.payloadSize, State.payloadSize, hlen]

theorem payloadIs_write {m : Memory} {bs : Bytes} (h : payloadIs m bs) (a : Nat) (b : Byte) :
    payloadIs (m.write a b) (bs.set a b) := by
  intro i hi
  rw [List.length_set] at hi
  rw [Memory.read_write, List.getElem?_set, h i hi]
  by_cases hia : i = a
  · subst hia
    simp [hi]
  · simp [hia, Ne.symm hia]

/-- One byte written changes that byte of the payload. -/
theorem payload_write (h : payloadWritten s) (a : Nat) (b : Byte) :
    State.payload { s with pay := s.pay.write a b } = s.payload.set a b := by
  refine payload_eq_of_payloadIs (payloadIs_write (payloadIs_of_written h) a b) ?_
  rw [List.length_set, payload_length]
  rfl

theorem ofNat_summedImage_length (hlen : lengthOk s) : BitVec.ofNat 64 s.summedImage.length = s.len := by
  obtain ⟨hlow, _⟩ := hlen
  have hsize : s.payloadSize = s.len.toNat - 16 := rfl
  have hcount : s.summedImage.length = s.len.toNat := by
    rw [summedImage_eq_checksumImage, checksumImage_length, payload_length, hsize]
    omega
  rw [hcount, BitVec.ofNat_toNat, BitVec.setWidth_eq]

/-! ### The two checksum phases (R129, R131) -/

theorem phaseSum_eq (hlen : lengthOk s) :
    phaseSum s =
      { s with
        sum := accumulate s.params.hostOrder (checksumImage s.params.hostOrder s.header s.payload)
        csum := cksum s.params.hostOrder (checksumImage s.params.hostOrder s.header s.payload)
        pos := s.len, draws := s.draws + 1 } := by
  have hpos : (phaseSum s).pos = s.len := ofNat_summedImage_length hlen
  calc phaseSum s = { phaseSum s with pos := (phaseSum s).pos } := rfl
    _ = _ := by rw [hpos]; rfl

theorem phaseVerify_eq (hlen : lengthOk s) :
    phaseVerify s =
      { s with
        sum := accumulate s.params.hostOrder (checksumImage s.params.hostOrder s.header s.payload)
        vok := decide (cksum s.params.hostOrder (checksumImage s.params.hostOrder s.header s.payload) = s.csum)
        rxcsum := s.csum, pos := s.len, draws := s.draws + 1 } := by
  have hpos : (phaseVerify s).pos = s.len := ofNat_summedImage_length hlen
  calc phaseVerify s = { phaseVerify s with pos := (phaseVerify s).pos } := rfl
    _ = _ := by rw [hpos]; rfl

/-! ### `GEN` and `VERIFY` are their one phase (R130, R131, R180) -/

theorem acceptChecked_of_idle (hidle : s.state = .idle) (hlen : lengthOk s) (run : State → State) :
    acceptCommand s (fun s => checked checkLen s run) = run s := by
  rw [acceptCommand_of_idle hidle]
  simp only [checked, (checkLen_eq_none s).mpr hlen]

/-- Outside `SERVE` the phase ends the command (R189). -/
theorem sumStep_of_not_seq (hidle : idleNow s) : sumStep { s with state := .summing } = phaseSum s := by
  obtain ⟨hstate, hseq⟩ := hidle
  have hnext : (if s.seq then SeqState.sending else .idle) = s.state := by simp [hseq, hstate]
  calc sumStep { s with state := .summing }
      = { phaseSum s with state := if s.seq then .sending else .idle } := rfl
    _ = { phaseSum s with state := s.state } := by rw [hnext]
    _ = phaseSum s := rfl

theorem verifyStep_of_not_seq (hidle : idleNow s) : verifyStep { s with state := .verifying } = phaseVerify s := by
  obtain ⟨hstate, hseq⟩ := hidle
  rcases verifyStep_cases { s with state := .verifying } with ⟨_, e⟩ | ⟨hother, _⟩ | ⟨hother, _⟩
  · rw [e, ← hstate]
    rfl
  · simp [hseq] at hother
  · simp [hseq] at hother

theorem exec_gen_of_idle (hidle : idleNow s) (hpace : s.pace = .merged) (hlen : lengthOk s) :
    exec .gen s = .next (phaseSum s) := by
  have ⟨hstate, _⟩ := hidle
  have hstep : engineStep { s with state := .summing } = some (phaseSum s) := by
    rw [engineStep_of_summing rfl, sumStep_of_not_seq hidle]
  have hheld : engineStep (phaseSum s) = none := by simp only [engineStep, phaseSum_state, hstate]
  refine congrArg Host.Outcome.next ((acceptChecked_of_idle hstate hlen _).trans ?_)
  exact advance_of_step_held (s := { s with state := .summing }) hpace hstep hheld

theorem exec_verify_of_idle (hidle : idleNow s) (hpace : s.pace = .merged) (hlen : lengthOk s) :
    exec .verify s = .next (phaseVerify s) := by
  have ⟨hstate, _⟩ := hidle
  have hstep : engineStep { s with state := .verifying } = some (phaseVerify s) := by
    rw [engineStep_of_verifying rfl, verifyStep_of_not_seq hidle]
  have hheld : engineStep (phaseVerify s) = none := by simp only [engineStep, phaseVerify_state, hstate]
  refine congrArg Host.Outcome.next ((acceptChecked_of_idle hstate hlen _).trans ?_)
  exact advance_of_step_held (s := { s with state := .verifying }) hpace hstep hheld

/-! ### A checksum phase after a checksum phase (R121) -/

/-- `CSUM` is zeroed in what is summed, so `GEN` does not change what the next phase sums over written bytes. -/
theorem phaseSum_summedImage (h : payloadWritten s) : (phaseSum s).summedImage = s.summedImage := by
  rw [summedImage_eq_checksumImage, payload_eq_of_written h (phaseSum_pay s) (phaseSum_len s), State.header,
    phaseSum_op, phaseSum_key, phaseSum_len, phaseSum_params]
  rfl

/-- A changed payload byte is seen by the phase while `CSUM` holds the checksum of what was there (R136). -/
theorem phaseVerify_write_vok {a : Nat} {b : Byte} (h : payloadWritten s)
    (hvalid : s.csum = cksum s.params.hostOrder (checksumImage s.params.hostOrder s.header s.payload))
    (ha : a < s.payloadSize) (hread : s.pay.read a ≠ some b) :
    (phaseVerify { s with pay := s.pay.write a b }).vok = false := by
  have hlength : a < s.payload.length := by rwa [payload_length]
  have hbyte : s.payload[a]? ≠ some b := by rwa [← payloadIs_of_written h a hlength]
  have hchanged := cksum_checksumImage_set_ne s.params.hostOrder s.header hlength hbyte
  rw [← hvalid, ← payload_write h] at hchanged
  rw [phaseVerify_vok]
  exact decide_eq_false hchanged

end

end Sys2Proof.Machine

namespace Sys2Proof.Proofs

open Sys2Proof.Machine

/-- Settles O29: `GEN` is its one phase, which walks `LEN` bytes. -/
theorem genStoresChecksum : Obligations.GenStoresChecksum :=
  fun _ hidle hpace hlen => (exec_gen_of_idle hidle hpace hlen).trans (congrArg Host.Outcome.next (phaseSum_eq hlen))

/-- Settles O30: `VERIFY` is its one phase, which walks `LEN` bytes. -/
theorem verifySetsVok : Obligations.VerifySetsVok :=
  fun _ hidle hpace hlen =>
    (exec_verify_of_idle hidle hpace hlen).trans (congrArg Host.Outcome.next (phaseVerify_eq hlen))

/-- Settles O31: the phase after `GEN` sums the same image. -/
theorem genThenVerifyMatches : Obligations.GenThenVerifyMatches := by
  intro s hidle hpace hlen hwritten
  have hidle' : idleNow (phaseSum s) := by simpa [idleNow] using hidle
  have hlen' : lengthOk (phaseSum s) := by simpa [lengthOk] using hlen
  have hpace' : (phaseSum s).pace = .merged := by simpa using hpace
  refine ⟨_, _, _, exec_gen_of_idle hidle hpace hlen, exec_gen_of_idle hidle' hpace' hlen', ?again,
    exec_verify_of_idle hidle' hpace' hlen', ?verified⟩
  case again => rw [phaseSum_csum, phaseSum_summedImage hwritten, phaseSum_params, phaseSum_csum]
  case verified => simp [phaseSum_summedImage hwritten]

/-- Settles O53: the host's write changes one byte of the image, and so its checksum, while `CSUM` is as it was. -/
theorem corruptedPayloadIsDetected : Obligations.CorruptedPayloadIsDetected := by
  intro s a b c hidle hpace hlen hwritten hvalid ha hread hne
  have ⟨hstate, _⟩ := hidle
  have ⟨_, hmax⟩ := hlen
  have hbusy : s.busy = false := by simp [State.busy, hstate, SeqState.busy]
  have hwrite := payWrite_granted (Nat.lt_of_lt_of_le ha hmax) hbusy b
  have hverify := exec_verify_of_idle (s := { s with pay := s.pay.write a b }) hidle hpace hlen
  have hchanged : s.pay.read a ≠ some b := fun h => hne (Option.some.inj (hread.symm.trans h))
  exact ⟨_, _, congrArg Host.Outcome.next hwrite, hverify, phaseVerify_write_vok hwritten hvalid ha hchanged⟩

end Sys2Proof.Proofs
end

section
/-! The cipher family, first part: the byte functions. Both directions are one function of ranks modulo 26, which the
opposite direction undoes (R150 to R155). -/

namespace Sys2Proof.Machine

/-! ### Byte classes and ranks (R150 to R153) -/

theorem isUpper_iff (c : Byte) : isUpper c = true ↔ 0x41 ≤ c.toNat ∧ c.toNat ≤ 0x5A := by
  simp only [isUpper, Bool.and_eq_true, decide_eq_true_eq]

theorem isLower_iff (c : Byte) : isLower c = true ↔ 0x61 ≤ c.toNat ∧ c.toNat ≤ 0x7A := by
  simp only [isLower, Bool.and_eq_true, decide_eq_true_eq]

theorem isUpper_of_isLower {c : Byte} (h : isLower c = true) : isUpper c = false := by
  rw [isLower_iff] at h
  rw [← Bool.not_eq_true, isUpper_iff]
  omega

theorem isLetter_of_isLower {c : Byte} (h : isLower c = true) : isLetter c = true := by simp [isLetter, h]

theorem lower_of_isLower {c : Byte} (h : isLower c = true) : lower c = c := by simp [lower, isUpper_of_isLower h]

theorem lower_of_not_isLetter {c : Byte} (h : isLetter c = false) : lower c = c := by
  obtain ⟨hupper, _⟩ : isUpper c = false ∧ isLower c = false := by simpa [isLetter] using h
  simp [lower, hupper]

theorem toNat_eq_rank {c : Byte} (h : isLower c = true) : c.toNat = 0x61 + rank c := by
  rw [isLower_iff] at h
  unfold rank
  omega

theorem rank_lt {c : Byte} (h : isLower c = true) : rank c < 26 := by
  rw [isLower_iff] at h
  unfold rank
  omega

/-- R153 written out. -/
theorem keyValid_iff (key : Keyword) :
    keyValid key = true ↔
      0x61 ≤ key.k0.toNat ∧ key.k0.toNat ≤ 0x7A ∧ 0x61 ≤ key.k1.toNat ∧ key.k1.toNat ≤ 0x7A ∧
        0x61 ≤ key.k2.toNat ∧ key.k2.toNat ≤ 0x7A ∧ 0x61 ≤ key.k3.toNat ∧ key.k3.toNat ≤ 0x7A := by
  simp only [keyValid, Bool.and_eq_true, isLower_iff, and_assoc]

theorem isLower_keyAt {key : Keyword} (h : keyValid key = true) (j : BitVec 2) : isLower (keyAt key j) = true := by
  simp only [keyValid, Bool.and_eq_true] at h
  obtain ⟨⟨⟨h0, h1⟩, h2⟩, h3⟩ := h
  unfold keyAt
  split
  · exact h0
  · exact h1
  · exact h2
  · exact h3

/-! ### The letter of a rank -/

/-- The lower-case letter of rank `r mod 26`. -/
def letterOfRank (r : Nat) : Byte := BitVec.ofNat 8 (0x61 + r % 26)

theorem letterOfRank_toNat (r : Nat) : (letterOfRank r).toNat = 0x61 + r % 26 := by
  rw [letterOfRank, BitVec.toNat_ofNat]
  omega

theorem isLower_letterOfRank (r : Nat) : isLower (letterOfRank r) = true := by
  rw [isLower_iff, letterOfRank_toNat]
  omega

@[simp] theorem rank_letterOfRank (r : Nat) : rank (letterOfRank r) = r % 26 := by
  rw [rank, letterOfRank_toNat]
  omega

theorem letterOfRank_congr {r r' : Nat} (h : r % 26 = r' % 26) : letterOfRank r = letterOfRank r' := by
  rw [letterOfRank, letterOfRank, h]

theorem letterOfRank_rank {c : Byte} (h : isLower c = true) : letterOfRank (rank c) = c := by
  refine BitVec.eq_of_toNat_eq ?_
  rw [letterOfRank_toNat, Nat.mod_eq_of_lt (rank_lt h), toNat_eq_rank h]

/-! ### One byte of a transform (R154, R155) -/

/-- The rank, before it is reduced modulo 26, of the letter of rank `r` moved by a keyword letter of rank `k`. -/
def Direction.shift : Direction → Nat → Nat → Nat
  | .encrypt, r, k => r + k
  | .decrypt, r, k => r + 26 - k

/-- What a transform makes of the byte `c` under the keyword letter `k`. -/
def Direction.moved (d : Direction) (c k : Byte) : Byte :=
  if isLetter c then letterOfRank (d.shift (rank (lower c)) (rank k)) else c

theorem moved_of_letter (d : Direction) {c : Byte} (h : isLetter c = true) (k : Byte) :
    d.moved c k = letterOfRank (d.shift (rank (lower c)) (rank k)) :=
  if_pos h

theorem moved_of_not_letter (d : Direction) {c : Byte} (h : isLetter c = false) (k : Byte) : d.moved c k = c :=
  if_neg (Bool.eq_false_iff.mp h)

/-- The one conditional correction by 26 of R154 is the reduction modulo 26: two ranks add up to less than 52. -/
theorem encByte_of_letter {c k : Byte} (hc : isLetter c = true) (hk : isLower k = true) :
    (encByte c k).1 = letterOfRank (rank (lower c) + rank k) := by
  have hlower : isLower (lower c) = true := (isLower_lower c).trans hc
  have hrank := rank_lt hlower
  have hrankKey := rank_lt hk
  simp only [encByte, hlower, if_true, letterOfRank, toNat_eq_rank hlower, Config.alphabet]
  congr 1
  split <;> omega

/-- The same of R155, where the difference of two ranks is more than -26. -/
theorem decByte_of_letter {c k : Byte} (hc : isLetter c = true) (hk : isLower k = true) :
    (decByte c k).1 = letterOfRank (rank (lower c) + 26 - rank k) := by
  have hlower : isLower (lower c) = true := (isLower_lower c).trans hc
  have hrank := rank_lt hlower
  have hrankKey := rank_lt hk
  simp only [decByte, hlower, if_true, letterOfRank, toNat_eq_rank hlower, Config.alphabet]
  congr 1
  split <;> omega

theorem direction_byte_of_not_letter (d : Direction) {c : Byte} (hc : isLetter c = false) (k : Byte) :
    (d.byte c k).1 = c := by
  have hlower : isLower c = false := by rw [← lower_of_not_isLetter hc, isLower_lower, hc]
  cases d with
  | encrypt => simp [Direction.byte, encByte, hlower, lower_of_not_isLetter hc]
  | decrypt => simp [Direction.byte, decByte, hlower, lower_of_not_isLetter hc]

/-- The value of both byte functions: the moved byte, and an advance at letters. -/
theorem direction_byte_eq (d : Direction) (c : Byte) {k : Byte} (hk : isLower k = true) :
    d.byte c k = (d.moved c k, isLetter c) := by
  refine Prod.ext ?value (direction_byte_advances d c k)
  case value =>
    cases hc : isLetter c with
    | false => exact (direction_byte_of_not_letter d hc k).trans (moved_of_not_letter d hc k).symm
    | true =>
      rw [moved_of_letter d hc]
      cases d with
      | encrypt => exact encByte_of_letter hc hk
      | decrypt => exact decByte_of_letter hc hk

/-- The same by the byte's class, as R154 and R155 have it. -/
theorem direction_byte_by_class (d : Direction) (c : Byte) {k : Byte} (hk : isLower k = true) :
    (isLetter c = true → d.byte c k = (letterOfRank (d.shift (rank (lower c)) (rank k)), true)) ∧
      (isLetter c = false → d.byte c k = (c, false)) := by
  rw [direction_byte_eq d c hk]
  exact ⟨fun hc => by rw [moved_of_letter d hc, hc], fun hc => by rw [moved_of_not_letter d hc, hc]⟩

/-! ### The shape of a moved byte (R162) -/

theorem isLower_moved (d : Direction) {c : Byte} (hc : isLetter c = true) (k : Byte) :
    isLower (d.moved c k) = true := by
  rw [moved_of_letter d hc]
  exact isLower_letterOfRank _

@[simp] theorem isLetter_moved (d : Direction) (c k : Byte) : isLetter (d.moved c k) = isLetter c := by
  cases hc : isLetter c with
  | false => rw [moved_of_not_letter d hc, hc]
  | true => exact isLetter_of_isLower (isLower_moved d hc k)

/-- A transform never leaves an upper-case letter as it was: what it makes of a letter is lower-case. -/
theorem moved_ne_of_isUpper (d : Direction) {c : Byte} (hc : isUpper c = true) (k : Byte) : d.moved c k ≠ c := by
  intro hsame
  have hlower : isLower (d.moved c k) = true := isLower_moved d (by simp [isLetter, hc]) k
  rw [hsame] at hlower
  exact Bool.false_ne_true ((isUpper_of_isLower hlower).symm.trans hc)

/-- The keyword letter 'a' has rank 0, so it moves nothing. -/
theorem moved_a (d : Direction) (c : Byte) : d.moved c 0x61#8 = lower c := by
  cases hc : isLetter c with
  | false => rw [moved_of_not_letter d hc, lower_of_not_isLetter hc]
  | true =>
    rw [moved_of_letter d hc, ← letterOfRank_rank ((isLower_lower c).trans hc), rank_letterOfRank]
    refine letterOfRank_congr ?_
    cases d with
    | encrypt => simp [Direction.shift, rank]
    | decrypt => simp [Direction.shift, rank]

/-! ### The opposite direction (R161) -/

/-- The transform that undoes a transform. -/
def Direction.opposite : Direction → Direction
  | .encrypt => .decrypt
  | .decrypt => .encrypt

/-- Moving a rank by a keyword letter's rank and back is the identity modulo 26. -/
theorem shift_opposite_mod (d : Direction) (r : Nat) {k : Nat} (hk : k < 26) :
    d.opposite.shift (d.shift r k % 26) k % 26 = r % 26 := by
  cases d with
  | encrypt => simp only [Direction.opposite, Direction.shift]; omega
  | decrypt => simp only [Direction.opposite, Direction.shift]; omega

theorem moved_opposite (d : Direction) (c : Byte) {k : Byte} (hk : isLower k = true) :
    d.opposite.moved (d.moved c k) k = lower c := by
  cases hc : isLetter c with
  | false => rw [moved_of_not_letter d hc, moved_of_not_letter _ hc, lower_of_not_isLetter hc]
  | true =>
    have hmoved : isLetter (d.moved c k) = true := (isLetter_moved d c k).trans hc
    rw [moved_of_letter _ hmoved, lower_of_isLower (isLower_moved d hc k), moved_of_letter d hc, rank_letterOfRank,
      letterOfRank_congr (shift_opposite_mod d _ (rank_lt hk)), letterOfRank_rank ((isLower_lower c).trans hc)]

end Sys2Proof.Machine

namespace Sys2Proof.Proofs

open Sys2Proof.Machine

/-- Settles O54: the value of the byte function in the encrypting direction. -/
theorem encryptByteValue : Obligations.EncryptByteValue :=
  fun c _ hk => direction_byte_by_class .encrypt c hk

/-- Settles O55: the value of the byte function in the decrypting direction. -/
theorem decryptByteValue : Obligations.DecryptByteValue :=
  fun c _ hk => direction_byte_by_class .decrypt c hk

end Sys2Proof.Proofs
end

section
/-! The cipher family, second part: the transformed payload, byte by byte (R156 to R158, R161, R162). -/

namespace Sys2Proof.Machine

/-- R156 for a byte `i` of the payload: its keyword position is the start moved on by the letters before it. -/
theorem walk_getElem? (d : Direction) (key : Keyword) (j : BitVec 2) (p : Bytes) (i : Nat) :
    (walk d.byte key j p).1[i]? =
      p[i]?.map fun c => (d.byte c (keyAt key (j + BitVec.ofNat 2 (letterCount (p.take i))))).1 := by
  induction p generalizing j i with
  | nil => simp [walk]
  | cons c rest ih =>
    cases i with
    | zero => simp [walk, letterCount]
    | succ i =>
      have hcount : letterCount (c :: rest.take i) = letterCount (rest.take i) + if isLetter c then 1 else 0 :=
        List.countP_cons
      rw [walk, List.getElem?_cons_succ, List.getElem?_cons_succ, List.take_succ_cons, ih, hcount,
        direction_byte_advances]
      cases isLetter c with
      | false => rfl
      | true => simp [BitVec.ofNat_add, BitVec.add_assoc, BitVec.add_comm]

/-- The keyword letter that byte `i` of the payload meets (R157: `K[j(i) mod 4]`). -/
def keyLetter (key : Keyword) (p : Bytes) (i : Nat) : Byte := keyAt key (BitVec.ofNat 2 (letterCount (p.take i)))

section
variable {key : Keyword} (hkey : keyValid key = true)
include hkey

/-- The closed form of both transforms (R157, R158). -/
theorem transformPayload_getElem? (d : Direction) (p : Bytes) (i : Nat) :
    (transformPayload d p key)[i]? = p[i]?.map fun c => d.moved c (keyLetter key p i) := by
  rw [← walk_bytes, walk_getElem?, BitVec.zero_add]
  simp only [direction_byte_eq d _ (isLower_keyAt hkey _), keyLetter]

theorem transformPayload_getElem?_of_some (d : Direction) {p : Bytes} {i : Nat} {c : Byte} (h : p[i]? = some c) :
    (transformPayload d p key)[i]? = some (d.moved c (keyLetter key p i)) := by
  rw [transformPayload_getElem? hkey, h, Option.map_some]

/-- A transformed payload has its letters where the payload has them (R162). -/
theorem map_isLetter_transformPayload (d : Direction) (p : Bytes) :
    (transformPayload d p key).map isLetter = p.map isLetter := by
  refine List.ext_getElem? fun i => ?_
  rw [List.getElem?_map, List.getElem?_map, transformPayload_getElem? hkey, Option.map_map]
  exact Option.map_congr fun c _ => isLetter_moved d c _

/-- So both directions meet the same keyword letters, which is why the one undoes the other (R161). -/
theorem keyLetter_transformPayload (d : Direction) (p : Bytes) (i : Nat) :
    keyLetter key (transformPayload d p key) i = keyLetter key p i := by
  have hletters (q : Bytes) : letterCount (q.take i) = ((q.map isLetter).take i).countP id := by
    rw [← List.map_take, List.countP_map]
    rfl
  rw [keyLetter, keyLetter, hletters, hletters, map_isLetter_transformPayload hkey]

theorem transformPayload_opposite (d : Direction) (p : Bytes) :
    transformPayload d.opposite (transformPayload d p key) key = p.map lower := by
  refine List.ext_getElem? fun i => ?_
  rw [transformPayload_getElem? hkey, keyLetter_transformPayload hkey, transformPayload_getElem? hkey, Option.map_map,
    List.getElem?_map]
  exact Option.map_congr fun c _ => moved_opposite d c (isLower_keyAt hkey _)

end

/-- The keyword "aaaa" (R162). -/
theorem transformPayload_aaaa (d : Direction) (p : Bytes) :
    transformPayload d p { k0 := 0x61#8, k1 := 0x61#8, k2 := 0x61#8, k3 := 0x61#8 } = p.map lower := by
  have hletter (j : BitVec 2) : keyAt { k0 := 0x61#8, k1 := 0x61#8, k2 := 0x61#8, k3 := 0x61#8 } j = 0x61#8 := by
    unfold keyAt
    split <;> rfl
  refine List.ext_getElem? fun i => ?_
  rw [transformPayload_getElem? (by decide), List.getElem?_map]
  exact Option.map_congr fun c _ => by rw [keyLetter, hletter, moved_a]

/-- What the transform phase leaves in `PAY` (R156). -/
theorem phaseXform_payloadIs (d : Direction) (s : State) :
    payloadIs (phaseXform d s).pay (transformPayload d s.payload s.key) := by
  rw [phaseXform_pay, walk_bytes]
  exact payloadIs_writeBytes _ _

end Sys2Proof.Machine

namespace Sys2Proof.Proofs

open Sys2Proof.Machine

/-- Settles O56: the closed form in the encrypting direction. -/
theorem encryptClosedForm : Obligations.EncryptClosedForm :=
  ⟨phaseXform_payloadIs .encrypt, fun p key hkey =>
    ⟨transformPayload_length .encrypt p key, fun _ _ h => transformPayload_getElem?_of_some hkey .encrypt h⟩⟩

/-- Settles O57: the closed form in the decrypting direction. -/
theorem decryptClosedForm : Obligations.DecryptClosedForm :=
  ⟨phaseXform_payloadIs .decrypt, fun p key hkey =>
    ⟨transformPayload_length .decrypt p key, fun _ _ h => transformPayload_getElem?_of_some hkey .decrypt h⟩⟩

/-- Settles O58: each direction is the other's opposite. -/
theorem cipherRoundTrip : Obligations.CipherRoundTrip :=
  fun p _ hkey => ⟨transformPayload_opposite hkey .encrypt p, transformPayload_opposite hkey .decrypt p⟩

/-- Settles O59: the shape of each moved byte. -/
theorem cipherShape : Obligations.CipherShape := by
  refine fun d p key hkey => ⟨transformPayload_length d p key, fun i c c' hc hc' => ?_, transformPayload_aaaa d p⟩
  obtain rfl : d.moved c (keyLetter key p i) = c' :=
    Option.some.inj ((transformPayload_getElem?_of_some hkey d hc).symm.trans hc')
  exact ⟨isLetter_moved d c _, fun h => isLower_moved d ((isLetter_moved d c _).symm.trans h) _,
    fun h => moved_of_not_letter d h _, fun h => moved_ne_of_isUpper d h _⟩

end Sys2Proof.Proofs
end

section
/-! The cipher family, third part: `ENC` and `DEC` check the keyword, then run to their ends (R153, R159, R160). -/

namespace Sys2Proof.Machine

section
variable {s : State}

theorem transformCommand_of_badKey (d : Direction) (hidle : s.state = .idle) (hlen : lengthOk s)
    (hkey : keyValid s.key = false) : transformCommand d s = reject .badKey s := by
  have hcheck : checkKey s = some .badKey := by simp [checkKey, hkey]
  rw [transformCommand, acceptChecked_of_idle hidle hlen]
  simp only [checked, hcheck]

theorem transformCommand_of_goodKey (d : Direction) (hidle : s.state = .idle) (hlen : lengthOk s)
    (hkey : keyValid s.key = true) : transformCommand d s = advance { s with state := d.state } := by
  rw [transformCommand, acceptChecked_of_idle hidle hlen]
  simp only [checked, (checkKey_eq_none s).mpr hkey]

/-- Outside `SERVE` the command is its two phases, transform and sum (R159, R160, R189). -/
theorem transformCommand_eq_phases (d : Direction) (hidle : idleNow s) (hpace : s.pace = .merged) (hlen : lengthOk s)
    (hkey : keyValid s.key = true) : transformCommand d s = phaseSum (phaseXform d s) := by
  have ⟨hstate, _⟩ := hidle
  have hidle' : idleNow (phaseXform d s) := by simpa [idleNow] using hidle
  have hxform : engineStep { s with state := d.state } = some { phaseXform d s with state := .summing } := by
    rw [engineStep_of_transforming rfl, xformStep_of_state]
  have hsum : engineStep { phaseXform d s with state := .summing } = some (phaseSum (phaseXform d s)) := by
    rw [engineStep_of_summing rfl, sumStep_of_not_seq hidle']
  have hheld : engineStep (phaseSum (phaseXform d s)) = none := by
    simp only [engineStep, phaseSum_state, phaseXform_state, hstate]
  rw [transformCommand_of_goodKey d hstate hlen hkey]
  exact advance_of_two_steps_held (s := { s with state := d.state }) hpace hxform hsum hheld

/-- What the sum after a transform covers (R121): `CSUM` is zeroed in it, and the header is otherwise as it was. -/
theorem phaseXform_summedImage (d : Direction) (s : State) :
    (phaseXform d s).summedImage =
      checksumImage s.params.hostOrder s.header (transformPayload d s.payload s.key) := by
  rw [summedImage_eq_checksumImage, phaseXform_payload, phaseXform_params]
  rfl

theorem phases_transformedFrom (d : Direction) (hidle : s.state = .idle) :
    transformedFrom d s (phaseSum (phaseXform d s)) := by
  refine ⟨?payload, ?kept, ?kidx, ?sum, ?csum, rfl, rfl, rfl, hidle, rfl, rfl, rfl, rfl, rfl, rfl, rfl, rfl, rfl,
    rfl, rfl, rfl, rfl, rfl, rfl⟩
  case payload => rw [phaseSum_pay]; exact phaseXform_payloadIs d s
  case kept =>
    rw [phaseSum_pay, phaseXform_pay, walk_bytes]
    exact payloadKeptFrom_writeBytes le_rfl _
  case kidx => rw [phaseSum_kidx, phaseXform_kidx_eq]
  case sum => rw [phaseSum_sum, phaseXform_summedImage, phaseXform_params]
  case csum => rw [phaseSum_csum, phaseXform_summedImage, phaseXform_params]

/-- The result of a standalone transform, in either direction. -/
theorem transformCommand_transformedFrom (d : Direction) (hidle : idleNow s) (hpace : s.pace = .merged)
    (hlen : lengthOk s) (hkey : keyValid s.key = true) : transformedFrom d s (transformCommand d s) := by
  have ⟨hstate, _⟩ := hidle
  rw [transformCommand_eq_phases d hidle hpace hlen hkey]
  exact phases_transformedFrom d hstate

end

end Sys2Proof.Machine

namespace Sys2Proof.Proofs

open Sys2Proof.Machine

/-- Settles O32: each of the two commands is its transform and the sum. -/
theorem transformCommandsResult : Obligations.TransformCommandsResult :=
  fun _ hidle hpace hlen hkey =>
    ⟨⟨_, rfl, transformCommand_transformedFrom .encrypt hidle hpace hlen hkey⟩,
      ⟨_, rfl, transformCommand_transformedFrom .decrypt hidle hpace hlen hkey⟩⟩

/-- Settles O40: the keyword is checked after the length and before anything is done. -/
theorem badKeyRejects : Obligations.BadKeyRejects := by
  rintro s i ⟨hstate, _⟩ hi hlen hbad
  have hkey : keyValid s.key = false := by rwa [← Bool.not_eq_true, keyValid_iff]
  rcases hi with rfl | rfl
  · exact congrArg Host.Outcome.next (transformCommand_of_badKey .encrypt hstate hlen hkey)
  · exact congrArg Host.Outcome.next (transformCommand_of_badKey .decrypt hstate hlen hkey)

end Sys2Proof.Proofs
end

section
/-! The sequencer family, first part: which commands are accepted, the length check, the two housekeeping commands, and
how a command opens its first phase (R181 to R184, R190). -/

namespace Sys2Proof.Machine

/-! ### Acceptance (R181) -/

theorem acceptHousekeeping_of_not_busy {s : State} (hbusy : s.busy = false) (run : State → State) :
    acceptHousekeeping s run = run s := by
  simp [acceptHousekeeping, hbusy]

theorem acceptHousekeeping_of_busy {s : State} (hbusy : s.busy = true) (run : State → State) :
    acceptHousekeeping s run = hostError s :=
  if_pos hbusy

theorem acceptCommand_of_terminal {s : State} (hterminal : s.state.terminal = true) (run : State → State) :
    acceptCommand s run = hostError s := by
  rcases acceptCommand_cases s run with ⟨_, e⟩ | ⟨hidle, _⟩
  · exact e
  · simp [hidle, SeqState.terminal] at hterminal

theorem busy_of_terminal {s : State} (hterminal : s.state.terminal = true) : s.busy = false := by
  unfold State.busy
  cases hstate : s.state with
  | closed | rejected => rfl
  | idle | receiving | verifying | encrypting | decrypting | summing | sending =>
    simp [hstate, SeqState.terminal] at hterminal

/-- A terminal state turns every command away but the two housekeeping ones. -/
theorem exec_of_terminal {i : Instr} {s : State} (hcmd : i.format = .cmd) (hnop : i ≠ .nop) (hclear : i ≠ .clear)
    (hterminal : s.state.terminal = true) : exec i s = .next (hostError s) := by
  cases i with
  | nop => exact absurd rfl hnop
  | clear => exact absurd rfl hclear
  | recv | gen | verify | enc | dec | send | serve =>
    exact congrArg Host.Outcome.next (acceptCommand_of_terminal hterminal _)
  | pktEncrypt csum key len | pktDecrypt csum key len => cases hcmd

/-! ### The codes (R78, R79) -/

/-- A command has one code: the byte that encodes it. -/
theorem encode_of_decodeCommand {c : Byte} {i : Instr} (h : decodeCommand c = .ok i) (o : ByteOrder) :
    encode o i = [c] := by
  unfold decodeCommand at h
  split at h
  case h_10 => cases h
  all_goals
    rename_i hcode
    cases h
    exact congrArg (· :: []) (BitVec.eq_of_toNat_eq hcode.symm)

theorem decodeCommand_of_code {c : Byte} (h : c.toNat ≤ 8) : ∃ i, decodeCommand c = .ok i := by
  unfold decodeCommand
  generalize c.toNat = code at h ⊢
  interval_cases code <;> exact ⟨_, rfl⟩

theorem issueCommand_of_terminal {c : Byte} {s : State} (hterminal : s.state.terminal = true) (hnop : c ≠ 0#8)
    (hclear : c ≠ 1#8) : issueCommand c s = .next (hostError s) := by
  by_cases hcode : c.toNat ≤ 8
  · obtain ⟨i, hdecode⟩ := decodeCommand_of_code hcode
    have hencode := encode_of_decodeCommand hdecode .be
    rw [issueCommand_of_decode hdecode]
    refine exec_of_terminal (format_of_decodeCommand hdecode) ?_ ?_ hterminal
    · rintro rfl
      exact hnop (List.head_eq_of_cons_eq hencode).symm
    · rintro rfl
      exact hclear (List.head_eq_of_cons_eq hencode).symm
  · exact issueCommand_of_reserved (by omega) s

/-! ### The two housekeeping commands (R183, R184) -/

theorem exec_nop_of_not_busy {s : State} (hbusy : s.busy = false) : exec .nop s = .next s :=
  congrArg Host.Outcome.next (acceptHousekeeping_of_not_busy hbusy _)

theorem exec_clear_of_not_busy {s : State} (hbusy : s.busy = false) : exec .clear s = .next (clearPacket s) :=
  congrArg Host.Outcome.next (acceptHousekeeping_of_not_busy hbusy _)

/-! ### The checks before a command (R182, R190) -/

/-- The commands that start with the length check reject with its verdict (R182). -/
theorem acceptChecked_rejects {s : State} {c : Cause} (hidle : s.state = .idle) (hcheck : checkLen s = some c)
    (run : State → State) : acceptCommand s (fun u => checked checkLen u run) = reject c s := by
  rw [acceptCommand_of_idle hidle]
  simp only [checked, hcheck]

theorem exec_of_length_refused {s : State} {i : Instr} {c : Cause} (hidle : s.state = .idle)
    (hi : i = .gen ∨ i = .verify ∨ i = .enc ∨ i = .dec ∨ i = .send) (hcheck : checkLen s = some c) :
    exec i s = .next (reject c s) := by
  rcases hi with rfl | rfl | rfl | rfl | rfl <;>
    exact congrArg Host.Outcome.next (acceptChecked_rejects hidle hcheck _)

theorem acceptHeader_of_refused {h : Header} {s : State} {c : Cause}
    (hcheck : checkLen (loadHeader h { s with vok := false }) = some c) :
    acceptHeader h s = reject c (loadHeader h { s with vok := false }) := by
  simp only [acceptHeader, checked, hcheck]

/-- Under the phased pace nothing follows a step within its turn (R180). -/
theorem advance_of_phased {s : State} (hpace : s.pace = .phased) : advance s = s := by
  simp only [advance, hpace]

end Sys2Proof.Machine

namespace Sys2Proof.Proofs

open Sys2Proof.Machine

/-- Settles O26: a command is turned away while the engine is busy and, but for the housekeeping ones, in a terminal
state; otherwise the write runs what its low byte decodes to. -/
theorem commandAcceptance : Obligations.CommandAcceptance := by
  intro s v c
  have hwrite : hostAccess (.regWrite 4 v) s = issueCommand c s := regWrite_cmd v s
  rw [hwrite]
  refine ⟨fun hbusy => issueCommand_of_busy hbusy c, fun hreserved => issueCommand_of_reserved hreserved s,
    fun hbusy hcode => ?nop, fun hbusy hcode => ?clear,
    fun hterminal hnop hclear => issueCommand_of_terminal hterminal hnop hclear, fun _ hcode => ?idle⟩
  case nop =>
    rw [hcode]
    exact exec_nop_of_not_busy hbusy
  case clear =>
    rw [hcode]
    exact exec_clear_of_not_busy hbusy
  case idle =>
    obtain ⟨i, hdecode⟩ := decodeCommand_of_code hcode
    exact ⟨i, hdecode, issueCommand_of_decode hdecode s⟩

/-- Settles O27: what `NOP` runs where it is accepted is the identity. -/
theorem nopDoesNothing : Obligations.NopDoesNothing :=
  ⟨rfl, fun _ => ⟨exec_nop_of_not_busy,
    fun hbusy => congrArg Host.Outcome.next (acceptHousekeeping_of_busy hbusy _)⟩⟩

/-- Settles O28: what `CLEAR` runs where it is accepted is `clearPacket`, field by field. -/
theorem clearEmptiesPacket : Obligations.ClearEmptiesPacket := by
  refine ⟨rfl, fun s => ⟨fun hbusy => ⟨clearPacket s, exec_clear_of_not_busy hbusy, ?_⟩,
    fun hbusy => congrArg Host.Outcome.next (acceptHousekeeping_of_busy hbusy _)⟩⟩
  exact ⟨rfl, rfl, rfl, rfl, rfl, rfl, rfl, rfl, rfl, rfl, rfl, rfl, rfl, rfl, rfl, rfl, rfl, rfl, rfl, rfl, rfl⟩

/-- Settles O37: in `IDLE` the command's checks pass and it opens its phase; the phased pace adds no step. -/
theorem phasedCommandOpensItsPhase : Obligations.PhasedCommandOpensItsPhase := by
  rintro s ⟨hidle, _⟩ hpace
  have hopens {u : State} (hu : u.pace = s.pace) : Host.Outcome.next (advance u) =
      (.next u : Host.Outcome State Fault Refusal) :=
    congrArg Host.Outcome.next (advance_of_phased (hu.trans hpace))
  refine ⟨(exec_recv_of_idle hidle).trans (hopens rfl), (exec_serve_of_idle hidle).trans (hopens rfl),
    fun hlen => ⟨?gen, ?verify, (exec_send_of_idle hidle hlen).trans (hopens rfl), fun hkey => ⟨?enc, ?dec⟩⟩⟩
  case gen => exact (congrArg Host.Outcome.next (acceptChecked_of_idle hidle hlen _)).trans (hopens rfl)
  case verify => exact (congrArg Host.Outcome.next (acceptChecked_of_idle hidle hlen _)).trans (hopens rfl)
  case enc =>
    exact (congrArg Host.Outcome.next (transformCommand_of_goodKey .encrypt hidle hlen hkey)).trans (hopens rfl)
  case dec =>
    exact (congrArg Host.Outcome.next (transformCommand_of_goodKey .decrypt hidle hlen hkey)).trans (hopens rfl)

/-- Settles O39: the verdict of the length check by its three ranges, which the five commands and the receive phase
take over. -/
theorem lengthCheckRejects : Obligations.LengthCheckRejects := by
  refine ⟨fun s i hidle hi => ?commands, checkLen_eq_none, fun h s => ?receive⟩
  case commands =>
    obtain ⟨hstate, _⟩ := hidle
    exact ⟨fun hlow => exec_of_length_refused hstate hi (checkLen_of_short hlow),
      fun hlow hbig => exec_of_length_refused hstate hi (checkLen_of_tooBig hlow hbig)⟩
  case receive =>
    exact ⟨fun hlow => acceptHeader_of_refused (checkLen_of_short hlow),
      fun hlow hbig => acceptHeader_of_refused (checkLen_of_tooBig hlow hbig),
      fun hlow hhigh => acceptHeader_of_lengthOk ⟨hlow, hhigh⟩⟩

end Sys2Proof.Proofs
end

section
/-! The sequencer family, second part: the engine follows the transition table, and so each command ends within six of
its steps (R180, R185, R190, R243). -/

namespace Sys2Proof.Machine

/-! ### The transition table, one row per kind of step (R190) -/

theorem dispatch_transition {s : State} (hseq : s.seq = true) :
    engineTransition s.seq .verifying (dispatch s).state = true := by
  rcases dispatch_cases s with ⟨_, e⟩ | ⟨d, _, _, e⟩ | ⟨d, _, _, e⟩ <;> rw [e, hseq]
  · rfl
  · rfl
  · cases d <;> rfl

theorem verifyStep_transition (s : State) : engineTransition s.seq .verifying (verifyStep s).state = true := by
  rcases verifyStep_cases s with ⟨hseq, e⟩ | ⟨hseq, _, e⟩ | ⟨hseq, _, e⟩ <;> rw [e]
  · rw [hseq]
    rfl
  · rw [hseq]
    rfl
  · have hphase := dispatch_transition ((phaseVerify_seq s).trans hseq)
    rwa [phaseVerify_seq] at hphase

theorem acceptHeader_transition {s : State} (hstate : s.state = .receiving) (h : Header) :
    engineTransition s.seq .receiving (acceptHeader h s).state = true := by
  rcases acceptHeader_cases h s with ⟨c, _, e⟩ | ⟨_, e⟩ <;> rw [e]
  · rfl
  · exact congrArg (engineTransition s.seq .receiving) hstate

theorem recvHeaderStep_transition {s t : State} (hstate : s.state = .receiving) (h : recvHeaderStep s = some t) :
    engineTransition s.seq .receiving t.state = true := by
  rcases recvHeaderStep_cases h with ⟨_, rfl⟩ | ⟨_, _, rfl⟩ | ⟨_, _, _, rfl⟩
  · rfl
  · exact acceptHeader_transition (s := { s with rxq := s.rxq.drop 16 }) hstate _
  · rfl

theorem recvPayloadStep_transition {s t : State} (h : recvPayloadStep s = some t) :
    engineTransition s.seq .receiving t.state = true := by
  rcases recvPayloadStep_cases h with ⟨_, rfl⟩ | ⟨_, _, rfl⟩
  · cases hseq : s.seq <;> simp [engineTransition]
  · rfl

theorem xformStep_transition (d : Direction) (s : State) :
    engineTransition s.seq d.state (xformStep d s).state = true := by
  cases d <;> rfl

theorem sumStep_transition (s : State) : engineTransition s.seq .summing (sumStep s).state = true := by
  cases hseq : s.seq <;> simp [sumStep, hseq, engineTransition]

theorem sendStep_transition {s t : State} (h : sendStep s = some t) :
    engineTransition s.seq .sending t.state = true := by
  rcases sendStep_cases h with ⟨_, rfl⟩ | ⟨plan, _, _, rfl⟩ | ⟨_, _, _, _, _, _, rfl⟩
  · rfl
  · rcases afterSend_cases { draw s with txlog := s.txlog ++ s.packetImage, txPlan := plan } with
      ⟨hseq, e⟩ | ⟨hseq, e⟩ <;> rw [e]
    · exact hseq
    · exact congrArg not hseq
  · rfl

theorem engineStep_transition {s t : State} (h : engineStep s = some t) :
    engineTransition s.seq s.state t.state = true := by
  rcases engineStep_cases h with
    ⟨hstate, _, h⟩ | ⟨hstate, _, h⟩ | ⟨hstate, rfl⟩ | ⟨d, hstate, rfl⟩ | ⟨hstate, rfl⟩ | ⟨hstate, h⟩ <;> rw [hstate]
  · exact recvHeaderStep_transition hstate h
  · exact recvPayloadStep_transition h
  · exact verifyStep_transition s
  · exact xformStep_transition d s
  · exact sumStep_transition s
  · exact sendStep_transition h

/-! ### How many engine steps a command can still take (R185, R243) -/

/-- The engine steps from the phase `q` to the end of `SERVE`, the longest command: the receive phase counts two. -/
def SeqState.stepsLeft : SeqState → Nat
  | .idle => 0
  | .receiving => 6
  | .verifying => 4
  | .encrypting => 3
  | .decrypting => 3
  | .summing => 2
  | .sending => 1
  | .closed => 0
  | .rejected => 0

/-- The same from a state, which may stand between the two receive steps (R101). -/
def State.stepsLeft (s : State) : Nat := if s.state = .receiving ∧ s.hdrTaken = true then 5 else s.state.stepsLeft

theorem stepsLeft_of_not_receiving {s : State} (hstate : s.state ≠ .receiving) : s.stepsLeft = s.state.stepsLeft :=
  if_neg fun h => hstate h.1

theorem stepsLeft_of_receiving {s : State} (hstate : s.state = .receiving) :
    s.stepsLeft = if s.hdrTaken = true then 5 else 6 := by
  simp [State.stepsLeft, hstate, SeqState.stepsLeft]

theorem stepsLeft_le (s : State) : s.stepsLeft ≤ 6 := by
  unfold State.stepsLeft
  cases s.state <;> simp only [SeqState.stepsLeft] <;> split <;> omega

/-- Every row of the table but the first receive step's own leads to a later phase. -/
theorem engineTransition_stepsLeft {seq : Bool} {q q' : SeqState} (h : engineTransition seq q q' = true)
    (hq' : q' ≠ .receiving) : q'.stepsLeft < q.stepsLeft ∧ q'.stepsLeft ≤ 4 := by
  unfold engineTransition at h
  split at h
  case h_1 => exact absurd rfl hq'
  case h_16 => cases h
  all_goals decide

theorem receiving_of_engineTransition {seq : Bool} {q : SeqState}
    (h : engineTransition seq q .receiving = true) : q = .receiving := by
  cases q with
  | receiving => rfl
  | idle | verifying | encrypting | decrypting | summing | sending | closed | rejected => cases h

/-- The engine stays in `RECEIVING` only by its first receive step (R101). -/
theorem engineStep_receiving {s t : State} (h : engineStep s = some t) (ht : t.state = .receiving) :
    s.state = .receiving ∧ s.hdrTaken = false ∧ t.hdrTaken = true := by
  have hrow := engineStep_transition h
  rw [ht] at hrow
  have hstate := receiving_of_engineTransition hrow
  cases hhdr : s.hdrTaken with
  | false =>
    rw [engineStep_of_header hstate hhdr] at h
    rcases recvHeaderStep_cases h with ⟨_, rfl⟩ | ⟨_, _, rfl⟩ | ⟨_, _, _, rfl⟩
    · cases ht
    · rcases acceptHeader_cases (parseHeader s.params.hostOrder (s.rxq.take 16)) { s with rxq := s.rxq.drop 16 } with
        ⟨c, _, e⟩ | ⟨_, e⟩ <;> rw [e] at ht ⊢
      · cases ht
      · exact ⟨hstate, rfl, rfl⟩
    · cases ht
  | true =>
    rw [engineStep_of_payload hstate hhdr] at h
    rcases recvPayloadStep_cases h with ⟨_, rfl⟩ | ⟨_, _, rfl⟩
    · cases hseq : s.seq <;> simp [hseq] at ht
    · cases ht

theorem engineStep_stepsLeft {s t : State} (h : engineStep s = some t) : t.stepsLeft < s.stepsLeft := by
  by_cases ht : t.state = .receiving
  · obtain ⟨hstate, hhdr, hhdr'⟩ := engineStep_receiving h ht
    rw [stepsLeft_of_receiving ht, stepsLeft_of_receiving hstate, hhdr, hhdr']
    decide
  · obtain ⟨hlater, hfour⟩ := engineTransition_stepsLeft (engineStep_transition h) ht
    rw [stepsLeft_of_not_receiving ht]
    by_cases hstate : s.state = .receiving
    · rw [stepsLeft_of_receiving hstate]
      split <;> omega
    · rwa [stepsLeft_of_not_receiving hstate]

theorem engineStep_runEngine {k : Nat} {s : State} (hk : s.stepsLeft ≤ k) : engineStep (runEngine k s) = none := by
  induction k generalizing s with
  | zero =>
    rw [Option.eq_none_iff_forall_ne_some]
    intro t h
    have hless := engineStep_stepsLeft (s := s) h
    omega
  | succ k ih =>
    rcases runEngine_succ k s with ⟨hheld, e⟩ | ⟨t, hstep, e⟩ <;> rw [e]
    · exact hheld
    · have hless := engineStep_stepsLeft hstep
      exact ih (by omega)

end Sys2Proof.Machine

namespace Sys2Proof.Proofs

open Sys2Proof.Machine

/-- Settles O12: each kind of step moves along its own rows. -/
theorem engineFollowsTransitionTable : Obligations.EngineFollowsTransitionTable :=
  fun _ _ h => engineStep_transition h

/-- Settles O11: every engine step leaves fewer steps to the end of the command, and there are never more than six. -/
theorem engineRunEnds : Obligations.EngineRunEnds :=
  fun s => engineStep_runEngine (stepsLeft_le s)

end Sys2Proof.Proofs
end

section
/-! The sequencer family, third part: no operation of the engine looks at the pace or at the turns to come, so the two
granularities lead to the same states (R180, log 4). -/

namespace Sys2Proof.Machine

/-! ### The engine's steps do not look at the schedule -/

/-- `s` under another pace and with other turns to come. -/
def State.scheduled (p : Pace) (turns : List Turn) (s : State) : State := { s with pace := p, agenda := turns }

section
variable (p : Pace) (turns : List Turn)

theorem checked_scheduled {check : State → Option Cause} {run : State → State} {s : State}
    (hcheck : check (s.scheduled p turns) = check s)
    (hrun : run (s.scheduled p turns) = (run s).scheduled p turns) :
    checked check (s.scheduled p turns) run = (checked check s run).scheduled p turns := by
  unfold checked
  rw [hcheck]
  cases check s with
  | none => exact hrun
  | some c => rfl

theorem acceptHeader_scheduled (h : Header) (s : State) :
    acceptHeader h (s.scheduled p turns) = (acceptHeader h s).scheduled p turns :=
  checked_scheduled p turns (s := loadHeader h { s with vok := false }) rfl rfl

theorem recvHeaderStep_scheduled (s : State) :
    recvHeaderStep (s.scheduled p turns) = (recvHeaderStep s).map (·.scheduled p turns) := by
  unfold recvHeaderStep
  have hconn : (s.scheduled p turns).conn = s.conn := rfl
  rw [hconn]
  cases s.conn with
  | false => rfl
  | true =>
    rcases rxTake_cases Config.headerBytes s with ⟨hlen, e⟩ | ⟨hlen, heof, e⟩ | ⟨hlen, hopen, e⟩ <;> rw [e]
    · rw [rxTake_of_arrived (s := s.scheduled p turns) hlen]
      exact congrArg some (acceptHeader_scheduled p turns
        (parseHeader s.params.hostOrder (s.rxq.take Config.headerBytes))
        { s with rxq := s.rxq.drop Config.headerBytes })
    · rw [rxTake_of_ended (s := s.scheduled p turns) hlen heof]
      rfl
    · rw [(rxTake_eq_hold_iff _ (s.scheduled p turns)).mpr ⟨hlen, hopen⟩]
      rfl

theorem recvPayloadStep_scheduled (s : State) :
    recvPayloadStep (s.scheduled p turns) = (recvPayloadStep s).map (·.scheduled p turns) := by
  rcases rxTake_cases s.payloadSize s with ⟨hlen, _⟩ | ⟨hlen, heof, _⟩ | ⟨hlen, hopen, _⟩
  · rw [recvPayloadStep_of_arrived hlen, recvPayloadStep_of_arrived (s := s.scheduled p turns) hlen]
    rfl
  · rw [recvPayloadStep_of_ended hlen heof, recvPayloadStep_of_ended (s := s.scheduled p turns) hlen heof]
    rfl
  · rw [(recvPayloadStep_eq_none_iff s).mpr ⟨hlen, hopen⟩,
      (recvPayloadStep_eq_none_iff (s.scheduled p turns)).mpr ⟨hlen, hopen⟩]
    rfl

theorem dispatch_scheduled (s : State) : dispatch (s.scheduled p turns) = (dispatch s).scheduled p turns := by
  have hop : (s.scheduled p turns).op = s.op := rfl
  unfold dispatch
  rw [hop]
  cases operation s.op with
  | none => rfl
  | some d => exact checked_scheduled p turns rfl rfl

theorem phaseVerify_scheduled (s : State) :
    phaseVerify (s.scheduled p turns) = (phaseVerify s).scheduled p turns := rfl

theorem verifyStep_scheduled (s : State) : verifyStep (s.scheduled p turns) = (verifyStep s).scheduled p turns := by
  unfold verifyStep
  simp only [phaseVerify_scheduled, dispatch_scheduled]
  have hseq : ((phaseVerify s).scheduled p turns).seq = (phaseVerify s).seq := rfl
  have hvok : ((phaseVerify s).scheduled p turns).vok = (phaseVerify s).vok := rfl
  rw [hseq, hvok]
  cases (phaseVerify s).seq with
  | false => rfl
  | true => cases (phaseVerify s).vok <;> rfl

theorem xformStep_scheduled (d : Direction) (s : State) :
    xformStep d (s.scheduled p turns) = (xformStep d s).scheduled p turns := by
  have hpayload : (s.scheduled p turns).payload = s.payload := rfl
  unfold xformStep phaseXform
  rw [hpayload]
  rfl

theorem sumStep_scheduled (s : State) : sumStep (s.scheduled p turns) = (sumStep s).scheduled p turns := rfl

theorem afterSend_scheduled (s : State) :
    afterSend (s.scheduled p turns) = (afterSend s).scheduled p turns := by
  have hseq : (s.scheduled p turns).seq = s.seq := rfl
  unfold afterSend
  rw [hseq]
  cases s.seq <;> rfl

theorem sendStep_scheduled (s : State) :
    sendStep (s.scheduled p turns) = (sendStep s).map (·.scheduled p turns) := by
  cases hconn : s.conn with
  | false => rw [sendStep_of_closed hconn, sendStep_of_closed (s := s.scheduled p turns) hconn]; rfl
  | true =>
    cases hplan : s.txPlan with
    | nil =>
      rw [(sendStep_eq_none_iff s).mpr ⟨hconn, hplan⟩,
        (sendStep_eq_none_iff (s.scheduled p turns)).mpr ⟨hconn, hplan⟩]
      rfl
    | cons answer plan =>
      cases answer with
      | ok =>
        rw [sendStep_of_ok hconn hplan, sendStep_of_ok (s := s.scheduled p turns) hconn hplan]
        exact congrArg some (afterSend_scheduled p turns
          { draw s with txlog := s.txlog ++ s.packetImage, txPlan := plan })
      | fail n =>
        rw [sendStep_of_fail hconn hplan, sendStep_of_fail (s := s.scheduled p turns) hconn hplan]
        rfl

theorem engineStep_scheduled (s : State) :
    engineStep (s.scheduled p turns) = (engineStep s).map (·.scheduled p turns) := by
  have hstate : (s.scheduled p turns).state = s.state := rfl
  have hhdr : (s.scheduled p turns).hdrTaken = s.hdrTaken := rfl
  unfold engineStep
  rw [hstate, hhdr]
  cases s.state with
  | idle | closed | rejected => rfl
  | receiving =>
    cases s.hdrTaken with
    | false => exact recvHeaderStep_scheduled p turns s
    | true => exact recvPayloadStep_scheduled p turns s
  | verifying => exact congrArg some (verifyStep_scheduled p turns s)
  | encrypting => exact congrArg some (xformStep_scheduled p turns .encrypt s)
  | decrypting => exact congrArg some (xformStep_scheduled p turns .decrypt s)
  | summing => exact congrArg some (sumStep_scheduled p turns s)
  | sending => exact sendStep_scheduled p turns s

theorem runEngine_scheduled (k : Nat) (s : State) :
    runEngine k (s.scheduled p turns) = (runEngine k s).scheduled p turns := by
  induction k generalizing s with
  | zero => rfl
  | succ k ih =>
    have hcomm := engineStep_scheduled p turns s
    rcases runEngine_succ k s with ⟨hheld, e⟩ | ⟨t, hstep, e⟩ <;> rw [e]
    · rw [hheld] at hcomm
      exact runEngine_of_held hcomm _
    · rw [hstep] at hcomm
      rw [runEngine_of_step hcomm, ih]

end

/-! ### Phased turns of the engine are its run (R180) -/

theorem step_engineTurn_of_phased {s t : State} (h : engineStep s = some t) (turns : List Turn) :
    step (s.scheduled .phased (.engine :: turns)) = .next (t.scheduled .phased turns) := by
  have hstep : engineStep (s.scheduled .phased turns) = some (t.scheduled .phased turns) := by
    rw [engineStep_scheduled, h]
    rfl
  have hrun : engineRun (s.scheduled .phased turns) = t.scheduled .phased turns := by
    simp only [engineRun, hstep]
    exact advance_of_phased rfl
  exact (engineTurn_eq_engineRun _).trans (congrArg Host.Outcome.next hrun)

/-- Under the phased pace `n` turns of the engine are a run of at most `n` steps. -/
theorem run_engineTurns_of_phased (n : Nat) (s : State) (turns : List Turn) :
    Host.Core.run Sys2Proof.core n (s.scheduled .phased (List.replicate n .engine ++ turns)) =
      .next ((runEngine n s).scheduled .phased turns) := by
  induction n generalizing s with
  | zero => rfl
  | succ n ih =>
    cases hstep : engineStep s with
    | none =>
      have hheld : engineStep (s.scheduled .phased turns) = none := by
        rw [engineStep_scheduled, hstep]
        rfl
      rw [runEngine_of_held hstep]
      exact run_engineTurns_of_held hheld (n + 1)
    | some t =>
      rw [runEngine_of_step hstep]
      exact (run_succ_of_step (step_engineTurn_of_phased hstep _) n).trans (ih t)

/-- The merged pace takes the same six steps in one turn (R180). -/
theorem advance_scheduled_merged (s : State) (turns : List Turn) :
    advance (s.scheduled .merged turns) = (runEngine 6 s).scheduled .merged turns :=
  runEngine_scheduled .merged turns 6 s

theorem advance_scheduled_phased (s : State) (turns : List Turn) :
    advance (s.scheduled .phased turns) = s.scheduled .phased turns :=
  advance_of_phased rfl

/-! ### The pace enters an instruction only where it advances -/

/-- From `s`, whatever the schedule, `run` leaves one state, or opens one phase and advances from it as the pace has
it. -/
def PaceOnlyAdvances (run : State → State) (s : State) : Prop :=
  (∃ v : State, ∀ p turns, run (s.scheduled p turns) = v.scheduled p turns) ∨
    ∃ v : State, ∀ p turns, run (s.scheduled p turns) = advance (v.scheduled p turns)

section
variable {run run' : State → State} {s : State}

theorem paceOnlyAdvances_of_leaves (v : State) (h : ∀ p turns, run (s.scheduled p turns) = v.scheduled p turns) :
    PaceOnlyAdvances run s :=
  Or.inl ⟨v, h⟩

theorem paceOnlyAdvances_of_opens (v : State)
    (h : ∀ p turns, run (s.scheduled p turns) = advance (v.scheduled p turns)) : PaceOnlyAdvances run s :=
  Or.inr ⟨v, h⟩

theorem PaceOnlyAdvances.congr (h : PaceOnlyAdvances run s)
    (hsame : ∀ p turns, run' (s.scheduled p turns) = run (s.scheduled p turns)) : PaceOnlyAdvances run' s := by
  simpa only [PaceOnlyAdvances, hsame] using h

theorem acceptHousekeeping_paceOnlyAdvances (h : PaceOnlyAdvances run s) :
    PaceOnlyAdvances (acceptHousekeeping · run) s := by
  cases hbusy : s.busy with
  | true =>
    exact paceOnlyAdvances_of_leaves (hostError s) fun p turns =>
      acceptHousekeeping_of_busy (s := s.scheduled p turns) hbusy run
  | false => exact h.congr fun p turns => acceptHousekeeping_of_not_busy (s := s.scheduled p turns) hbusy run

theorem acceptCommand_paceOnlyAdvances (h : PaceOnlyAdvances run s) : PaceOnlyAdvances (acceptCommand · run) s := by
  by_cases hidle : s.state = .idle
  · exact h.congr fun p turns => acceptCommand_of_idle (s := s.scheduled p turns) hidle run
  · refine paceOnlyAdvances_of_leaves (hostError s) fun p turns => ?_
    rcases acceptCommand_cases (s.scheduled p turns) run with ⟨_, e⟩ | ⟨hother, _⟩
    · exact e
    · exact absurd hother hidle

theorem checked_paceOnlyAdvances {check : State → Option Cause}
    (hcheck : ∀ p turns, check (s.scheduled p turns) = check s) (h : PaceOnlyAdvances run s) :
    PaceOnlyAdvances (checked check · run) s := by
  cases hverdict : check s with
  | some c =>
    refine paceOnlyAdvances_of_leaves (reject c s) fun p turns => ?_
    simp only [checked, hcheck, hverdict]
    rfl
  | none => exact h.congr fun p turns => by simp only [checked, hcheck, hverdict]

/-- The commands that check the length and open a phase (R182). -/
theorem acceptChecked_paceOnlyAdvances (h : PaceOnlyAdvances run s) :
    PaceOnlyAdvances (fun u => acceptCommand u (checked checkLen · run)) s :=
  acceptCommand_paceOnlyAdvances (checked_paceOnlyAdvances (fun _ _ => rfl) h)

end

/-- Opening a phase by setting `STATE` (R190). -/
theorem opensPhase_paceOnlyAdvances (q : SeqState) (s : State) :
    PaceOnlyAdvances (fun u => advance { u with state := q }) s :=
  paceOnlyAdvances_of_opens { s with state := q } fun _ _ => rfl

theorem transformCommand_paceOnlyAdvances (d : Direction) (s : State) : PaceOnlyAdvances (transformCommand d) s :=
  acceptChecked_paceOnlyAdvances (checked_paceOnlyAdvances (fun _ _ => rfl) (opensPhase_paceOnlyAdvances d.state s))

theorem servePacket_paceOnlyAdvances (h : Header) (s : State) : PaceOnlyAdvances (servePacket h) s := by
  cases hawaits : awaitsPacket s with
  | true =>
    refine paceOnlyAdvances_of_opens (acceptHeader h s) fun p turns => ?_
    rw [← acceptHeader_scheduled]
    exact if_pos hawaits
  | false => exact paceOnlyAdvances_of_leaves s fun p turns => if_neg (ne_true_of_eq_false hawaits)

theorem exec_paceOnlyAdvances (i : Instr) (s : State) :
    ∃ run, (∀ u, exec i u = .next (run u)) ∧ PaceOnlyAdvances run s := by
  cases i with
  | nop =>
    exact ⟨_, fun _ => rfl, acceptHousekeeping_paceOnlyAdvances (paceOnlyAdvances_of_leaves s fun _ _ => rfl)⟩
  | clear =>
    exact ⟨_, fun _ => rfl,
      acceptHousekeeping_paceOnlyAdvances (paceOnlyAdvances_of_leaves (clearPacket s) fun _ _ => rfl)⟩
  | recv =>
    exact ⟨_, fun _ => rfl,
      acceptCommand_paceOnlyAdvances (paceOnlyAdvances_of_opens (openReceive s) fun _ _ => rfl)⟩
  | serve =>
    exact ⟨_, fun _ => rfl, acceptCommand_paceOnlyAdvances
      (paceOnlyAdvances_of_opens (openReceive { s with seq := true }) fun _ _ => rfl)⟩
  | gen | verify | send =>
    exact ⟨_, fun _ => rfl, acceptChecked_paceOnlyAdvances (opensPhase_paceOnlyAdvances _ s)⟩
  | enc | dec => exact ⟨_, fun _ => rfl, transformCommand_paceOnlyAdvances _ s⟩
  | pktEncrypt csum key len | pktDecrypt csum key len =>
    exact ⟨_, fun _ => rfl, servePacket_paceOnlyAdvances _ s⟩

end Sys2Proof.Machine

namespace Sys2Proof.Proofs

open Sys2Proof.Machine

/-- Settles O10: an instruction that opens no phase leaves the same state under both paces; one that opens a phase is
run to its end by six phased turns. -/
theorem mergedPaceIsPhasedTurns : Obligations.MergedPaceIsPhasedTurns := by
  intro i s t u hmerged hphased
  obtain ⟨run, hexec, hpace⟩ := exec_paceOnlyAdvances i s
  have ht : t = run (s.scheduled .merged s.agenda) := Host.Outcome.next.inj (hmerged.symm.trans (hexec _))
  have hu : u = run (s.scheduled .phased s.agenda) := Host.Outcome.next.inj (hphased.symm.trans (hexec _))
  rcases hpace with ⟨v, hleaves⟩ | ⟨v, hopens⟩
  · rw [hleaves] at ht hu
    subst ht hu
    exact ⟨0, by omega, rfl⟩
  · rw [hopens, advance_scheduled_merged] at ht
    rw [hopens, advance_scheduled_phased] at hu
    subst ht hu
    exact ⟨6, le_rfl, run_engineTurns_of_phased 6 v s.agenda⟩

end Sys2Proof.Proofs
end

section
/-! The sequencer family, fourth part: a terminal state stands until `CLEAR` or reset (R190, R209). -/

namespace Sys2Proof.Machine

/-- What a terminal state keeps: the outcome of the command that ended in it (R209). -/
def State.standing (s : State) : SeqState × Cause × Bool × Bytes := (s.state, s.err, s.conn, s.txlog)

theorem standing_eq_iff {s t : State} :
    t.standing = s.standing ↔ t.state = s.state ∧ t.err = s.err ∧ t.conn = s.conn ∧ t.txlog = s.txlog := by
  simp [State.standing]

/-! ### Host accesses other than commands, in any state -/

theorem regRead_standing (r : Nat) (s : State) : (regRead r s).standing = s.standing := by
  unfold regRead
  cases registerValue r s <;> dsimp only <;> split_ifs <;> rfl

theorem regWrite_standing {r : Nat} {v : Word64} {s t : State} (hcmd : r ≠ cmdNumber)
    (h : regWrite r v s = .next t) : t.standing = s.standing := by
  unfold regWrite at h
  rw [if_neg hcmd] at h
  cases hw : writeRegister r v s with
  | none => rw [hw] at h; cases h; rfl
  | some u =>
    obtain ⟨hdr, rfl⟩ := writeRegister_eq_loadHeader hw
    rw [hw] at h
    cases h
    split <;> rfl

theorem payRead_standing (a : Nat) (s : State) : (payRead a s).standing = s.standing := by
  unfold payRead
  split <;> rfl

theorem payWrite_standing (a : Nat) (b : Byte) (s : State) : (payWrite a b s).standing = s.standing := by
  unfold payWrite
  split <;> rfl

/-! ### Commands and turns in a terminal state -/

/-- In a terminal state no command but `CLEAR` does anything: `NOP` is accepted, the others are refused (R181). -/
theorem issueCommand_standing_of_terminal {c : Byte} {s t : State} (hterminal : s.state.terminal = true)
    (hclear : c ≠ 1#8) (h : issueCommand c s = .next t) : t.standing = s.standing := by
  by_cases hnop : c = 0#8
  · have haccepted : issueCommand c s = .next s := by
      rw [hnop]
      exact exec_nop_of_not_busy (busy_of_terminal hterminal)
    cases haccepted.symm.trans h
    rfl
  · cases (issueCommand_of_terminal hterminal hnop hclear).symm.trans h
    rfl

theorem hostAccess_standing_of_terminal {a : Access} {s t : State} (hterminal : s.state.terminal = true)
    (hclear : ∀ v, a = .regWrite 4 v → v.setWidth 8 ≠ 1#8) (h : hostAccess a s = .next t) :
    t.standing = s.standing := by
  cases a with
  | regRead r => cases h; exact regRead_standing r s
  | regWrite r v =>
    by_cases hcmd : r = cmdNumber
    · subst hcmd
      exact issueCommand_standing_of_terminal (c := v.setWidth 8) hterminal (hclear v rfl) h
    · exact regWrite_standing hcmd h
  | payRead a => cases h; exact payRead_standing a s
  | payWrite a b => cases h; exact payWrite_standing a b s

theorem linkStep_standing (e : LinkEvent) (s : State) : (linkStep e s).standing = s.standing := by
  cases e with
  | rx bs => dsimp only [linkStep]; split <;> rfl
  | eof | tx answer => rfl

/-- The engine has no step in a terminal state (R190). -/
theorem engineRun_of_terminal {s : State} (hterminal : s.state.terminal = true) : engineRun s = s :=
  engineRun_of_held ((engineStep_eq_none_iff s).mpr (.inl (busy_of_terminal hterminal)))

theorem takeTurn_standing_of_terminal {turn : Turn} {s t : State} (hterminal : s.state.terminal = true)
    (hreset : turn ≠ .reset) (hclear : ∀ v, turn = .host (.regWrite 4 v) → v.setWidth 8 ≠ 1#8)
    (h : takeTurn turn s = .next t) : t.standing = s.standing := by
  cases turn with
  | host a => exact hostAccess_standing_of_terminal hterminal (fun v ha => hclear v (congrArg Turn.host ha)) h
  | wait => cases takeTurn_leaves h; rfl
  | link e => cases h; exact linkStep_standing e s
  | engine =>
    cases takeTurn_leaves h
    rw [engineRun_of_terminal hterminal]
  | reset => exact absurd rfl hreset
  | setPace p => cases h; rfl

end Sys2Proof.Machine

namespace Sys2Proof.Proofs

open Sys2Proof.Machine

/-- Settles O14: the engine has no step in a terminal state, and no other turn but the two excluded ones touches what it
keeps. -/
theorem terminalLeftOnlyByClearOrReset : Obligations.TerminalLeftOnlyByClearOrReset := by
  intro s t hterminal hstep hreset hclear
  rw [← standing_eq_iff]
  cases hagenda : s.agenda with
  | nil =>
    have hengine : takeTurn .engine s = .next t := (step_of_agenda_nil hagenda).symm.trans hstep
    exact takeTurn_standing_of_terminal hterminal (turn := .engine) nofun nofun hengine
  | cons turn rest =>
    rw [step_of_agenda_cons hagenda] at hstep
    rw [hagenda, List.head?_cons] at hreset hclear
    exact takeTurn_standing_of_terminal (s := { s with agenda := rest }) hterminal (fun h => hreset (congrArg some h))
      (fun v h => hclear v (congrArg some h)) hstep

end Sys2Proof.Proofs
end

section
/-! The sequencer family, fifth part: `SERVE` on a packet that arrives whole, answered or rejected (R185 to R187, R207,
R208). -/

namespace Sys2Proof.Machine

section
variable {d : Direction} {h : Header} {p rest : Bytes} {s : State} {c : Cause}

/-! ### The receive phase of `SERVE` -/

/-- `SERVE` accepted in `s`, before its first step: `SEQ` set and the receive phase open (R185). -/
def serveBegun (s : State) : State := openReceive { s with seq := true }

/-- `SERVE` takes the header of a delivered packet in its first step (R100, R185). -/
theorem exec_serve_of_delivered (hidle : s.state = .idle) (hpace : s.pace = .merged) (hconn : s.conn = true)
    (hlen : h.len.toNat = 16 + p.length) (hmax : p.length ≤ s.params.maxPayload)
    (hrxq : s.rxq = headerImage s.params.hostOrder h ++ p ++ rest) :
    exec .serve s = .next (runEngine 5 (headerLoaded h (p ++ rest) (serveBegun s))) := by
  have harrived : (serveBegun s).rxq = headerImage (serveBegun s).params.hostOrder h ++ (p ++ rest) := by
    simpa [serveBegun] using hrxq
  have hheader : engineStep (serveBegun s) = some (headerLoaded h (p ++ rest) (serveBegun s)) :=
    engineStep_of_header_arrived rfl rfl hconn harrived (by omega)
      (by simp only [serveBegun, openReceive_params]; omega)
  have hrun : advance (serveBegun s) = runEngine 6 (serveBegun s) := by
    have hmerged : (serveBegun s).pace = .merged := hpace
    simp only [advance, hmerged, longestRun]
  rw [exec_serve_of_idle hidle]
  exact congrArg Host.Outcome.next (hrun.trans (runEngine_of_step hheader 5))

/-- The outcomes of serving are told from what opening the receive phase leaves alone. -/
theorem serveOutcomes_serveBegun_iff {o : Host.Outcome State Fault Refusal} :
    serveOutcomes d h p rest (serveBegun s) o ↔ serveOutcomes d h p rest s o :=
  Iff.rfl

/-! ### The verdict on the packet received (R84, R208) -/

/-- `VOK` of the `VERIFYING` step says whether the packet received carries its own checksum (R131). -/
theorem phaseVerify_packetLoaded_vok (hlen : h.len.toNat = 16 + p.length) :
    (phaseVerify (packetLoaded h p rest s)).vok =
      decide (cksum s.params.hostOrder (checksumImage s.params.hostOrder h p) = h.csum) := by
  have hpayload : (packetLoaded h p rest s).payload = p :=
    payload_eq_of_payloadIs packetLoaded_payloadIs (packetLoaded_payloadSize hlen)
  rw [phaseVerify_vok, summedImage_eq_checksumImage, hpayload]
  rfl

theorem phaseVerify_packetLoaded_sum (hlen : h.len.toNat = 16 + p.length) :
    (phaseVerify (packetLoaded h p rest s)).sum =
      accumulate s.params.hostOrder (checksumImage s.params.hostOrder h p) := by
  have hpayload : (packetLoaded h p rest s).payload = p :=
    payload_eq_of_payloadIs packetLoaded_payloadIs (packetLoaded_payloadSize hlen)
  rw [phaseVerify_sum, summedImage_eq_checksumImage, hpayload]
  rfl

/-- The three verdicts, in their order. -/
theorem verdict_eq_some {o : ByteOrder} (hbad : verdict o h p = some c) :
    (cksum o (checksumImage o h p) ≠ h.csum ∧ c = .badSum) ∨
      (cksum o (checksumImage o h p) = h.csum ∧ operation h.op = none ∧ c = .badOp) ∨
      (cksum o (checksumImage o h p) = h.csum ∧ operation h.op ≠ none ∧ keyValid h.key = false ∧ c = .badKey) := by
  unfold verdict at hbad
  split_ifs at hbad with hsum hop hkey <;> cases hbad
  · exact .inl ⟨hsum, rfl⟩
  · exact .inr (.inl ⟨not_not.mp hsum, hop, rfl⟩)
  · exact .inr (.inr ⟨not_not.mp hsum, hop, hkey, rfl⟩)

/-- The dispatch gives the two verdicts on the header's operation and keyword, in this order (R186). -/
theorem dispatch_of_badOp (hop : operation s.op = none) : dispatch s = reject .badOp s := by
  simp only [dispatch, hop]

theorem dispatch_of_badKey (hop : operation s.op ≠ none) (hkey : keyValid s.key = false) :
    dispatch s = reject .badKey s := by
  rcases dispatch_cases s with ⟨hother, _⟩ | ⟨_, _, _, e⟩ | ⟨_, _, hother, _⟩
  · exact absurd hother hop
  · exact e
  · simp [hkey] at hother

theorem verifyStep_of_mismatch (hseq : s.seq = true) (hvok : (phaseVerify s).vok = false) :
    verifyStep s = reject .badSum (phaseVerify s) := by
  unfold verifyStep
  simp only [phaseVerify_seq, hseq, hvok, if_true]
  rfl

theorem verifyStep_of_match (hseq : s.seq = true) (hvok : (phaseVerify s).vok = true) :
    verifyStep s = dispatch (phaseVerify s) := by
  unfold verifyStep
  simp only [phaseVerify_seq, hseq, hvok, if_true]

/-- The `VERIFYING` step of `SERVE` rejects with the verdict, and `VOK` tells whether it was the checksum's. -/
theorem verifyStep_packetLoaded_of_bad (hseq : s.seq = true) (hlen : h.len.toNat = 16 + p.length)
    (hbad : verdict s.params.hostOrder h p = some c) :
    verifyStep (packetLoaded h p rest s) = reject c (phaseVerify (packetLoaded h p rest s)) ∧
      (phaseVerify (packetLoaded h p rest s)).vok = decide (c ≠ .badSum) := by
  have hvok := phaseVerify_packetLoaded_vok (rest := rest) (s := s) hlen
  rcases verdict_eq_some hbad with ⟨hsum, rfl⟩ | ⟨hsum, hop, rfl⟩ | ⟨hsum, hop, hkey, rfl⟩
  · rw [decide_eq_false hsum] at hvok
    exact ⟨verifyStep_of_mismatch (s := packetLoaded h p rest s) hseq hvok, hvok⟩
  · rw [decide_eq_true hsum] at hvok
    rw [verifyStep_of_match (s := packetLoaded h p rest s) hseq hvok]
    exact ⟨dispatch_of_badOp (s := phaseVerify (packetLoaded h p rest s)) hop, hvok⟩
  · rw [decide_eq_true hsum] at hvok
    rw [verifyStep_of_match (s := packetLoaded h p rest s) hseq hvok]
    exact ⟨dispatch_of_badKey (s := phaseVerify (packetLoaded h p rest s)) hop hkey, hvok⟩

theorem rejected_holdsPacket : holdsPacket h p s (reject c (phaseVerify (packetLoaded h p rest (serveBegun s)))) := by
  refine ⟨?header, ?payload, ?kept⟩
  case header => rfl
  case payload =>
    rw [reject_pay, phaseVerify_pay]
    exact packetLoaded_payloadIs
  case kept =>
    rw [reject_pay, phaseVerify_pay]
    exact payloadKeptFrom_writeBytes le_rfl s.pay

theorem rejected_surroundings :
    sameSurroundings s (reject c (phaseVerify (packetLoaded h p rest (serveBegun s)))) :=
  ⟨rfl, rfl, rfl, rfl, rfl, rfl⟩

end

end Sys2Proof.Machine

namespace Sys2Proof.Proofs

open Sys2Proof.Machine

/-- Settles O35: `SERVE` loads the header, and the rest of its run is that of a packet operation. -/
theorem serveAnswersPacket : Obligations.ServeAnswersPacket := by
  intro s d h p rest hidle hpace hconn hlen hmax hop hgood hrxq
  rw [exec_serve_of_delivered hidle hpace hconn hlen hmax hrxq, ← serveOutcomes_serveBegun_iff]
  exact runEngine_headerLoaded_serves (s := serveBegun s) rfl rfl hconn hlen hop hgood 0

/-- Settles O43: `SERVE` loads the packet, and its `VERIFYING` step is where it is rejected. -/
theorem serveRejectsInOrder : Obligations.ServeRejectsInOrder := by
  intro s h p rest c hidle hpace hconn hlen hmax hrxq hbad
  obtain ⟨hverify, hvok⟩ := verifyStep_packetLoaded_of_bad (rest := rest) (s := serveBegun s) rfl hlen hbad
  have hsum := phaseVerify_packetLoaded_sum (rest := rest) (s := serveBegun s) hlen
  have hrun := exec_serve_of_delivered hidle hpace hconn hlen hmax hrxq
  rw [runEngine_of_step (engineStep_of_payload_arrived rfl rfl hlen), runEngine_of_step (engineStep_of_verifying rfl),
    hverify, runEngine_of_held rfl] at hrun
  exact ⟨_, hrun, ⟨rfl, rfl, rfl, rfl⟩, rejected_holdsPacket, hsum, hvok, rfl, rfl, rfl, rfl, rejected_surroundings⟩

end Sys2Proof.Proofs
end

section
/-! The exceptions family, first part: the rejection entry is the one way into `REJECTED` (R206). -/

namespace Sys2Proof.Machine

/-- A state that stands in `REJECTED` stands as the rejection entry, with a cause, has left it (R206). -/
def State.rejectionTaken (s : State) : Prop := s.state = .rejected → ∃ c, c ≠ .none ∧ rejectedWith c s

theorem reject_rejectedWith (c : Cause) (s : State) : rejectedWith c (reject c s) := ⟨rfl, rfl, rfl, rfl⟩

theorem reject_rejectionTaken {c : Cause} (hc : c ≠ .none) (s : State) : (reject c s).rejectionTaken :=
  fun _ => ⟨c, hc, reject_rejectedWith c s⟩

theorem rejectionTaken_of_busy {s : State} (hbusy : s.busy = true) : s.rejectionTaken :=
  fun hstate => by simp [State.busy, hstate, SeqState.busy] at hbusy

/-! ### Every engine step into `REJECTED` is the rejection entry -/

theorem acceptHeader_rejectionTaken (h : Header) {s : State} (hstate : s.state = .receiving) :
    (acceptHeader h s).rejectionTaken := by
  rcases acceptHeader_cases h s with ⟨c, hc, e⟩ | ⟨_, e⟩ <;> rw [e]
  · refine reject_rejectionTaken ?_ _
    rcases hc with rfl | rfl <;> decide
  · exact rejectionTaken_of_busy (congrArg SeqState.busy hstate)

theorem recvHeaderStep_rejectionTaken {s t : State} (hstate : s.state = .receiving)
    (h : recvHeaderStep s = some t) : t.rejectionTaken := by
  rcases recvHeaderStep_cases h with ⟨_, rfl⟩ | ⟨_, _, rfl⟩ | ⟨_, _, _, rfl⟩
  · exact reject_rejectionTaken (by decide) _
  · exact acceptHeader_rejectionTaken _ (s := { s with rxq := s.rxq.drop 16 }) hstate
  · exact reject_rejectionTaken (by decide) _

theorem recvPayloadStep_rejectionTaken {s t : State} (h : recvPayloadStep s = some t) : t.rejectionTaken := by
  rcases recvPayloadStep_cases h with ⟨_, rfl⟩ | ⟨_, _, rfl⟩
  · intro hrejected
    cases hseq : s.seq <;> simp [hseq] at hrejected
  · exact reject_rejectionTaken (by decide) _

theorem dispatch_rejectionTaken (s : State) : (dispatch s).rejectionTaken := by
  rcases dispatch_cases s with ⟨_, e⟩ | ⟨d, _, _, e⟩ | ⟨d, _, _, e⟩ <;> rw [e]
  · exact reject_rejectionTaken (by decide) s
  · exact reject_rejectionTaken (by decide) s
  · exact rejectionTaken_of_busy (by cases d <;> rfl)

theorem verifyStep_rejectionTaken (s : State) : (verifyStep s).rejectionTaken := by
  rcases verifyStep_cases s with ⟨_, e⟩ | ⟨_, _, e⟩ | ⟨_, _, e⟩ <;> rw [e]
  · exact nofun
  · exact reject_rejectionTaken (by decide) _
  · exact dispatch_rejectionTaken _

theorem sumStep_rejectionTaken (s : State) : (sumStep s).rejectionTaken := by
  intro hrejected
  cases hseq : s.seq <;> simp [sumStep, hseq] at hrejected

theorem sendStep_rejectionTaken {s t : State} (h : sendStep s = some t) : t.rejectionTaken := by
  rcases sendStep_cases h with ⟨_, rfl⟩ | ⟨plan, _, _, rfl⟩ | ⟨_, plan, q, _, _, _, rfl⟩
  · exact reject_rejectionTaken (by decide) s
  · rcases afterSend_cases { draw s with txlog := s.txlog ++ s.packetImage, txPlan := plan } with
      ⟨_, e⟩ | ⟨_, e⟩ <;> rw [e] <;> exact nofun
  · exact reject_rejectionTaken (by decide) _

theorem engineStep_rejectionTaken {s t : State} (h : engineStep s = some t) : t.rejectionTaken := by
  rcases engineStep_cases h with
    ⟨hstate, _, h⟩ | ⟨_, _, h⟩ | ⟨_, rfl⟩ | ⟨d, _, rfl⟩ | ⟨_, rfl⟩ | ⟨_, h⟩
  · exact recvHeaderStep_rejectionTaken hstate h
  · exact recvPayloadStep_rejectionTaken h
  · exact verifyStep_rejectionTaken s
  · exact nofun
  · exact sumStep_rejectionTaken s
  · exact sendStep_rejectionTaken h

theorem advance_rejectionTaken {s : State} (hs : s.rejectionTaken) : (advance s).rejectionTaken :=
  advance_keeps (fun _ _ _ => engineStep_rejectionTaken) s hs

theorem engineRun_rejectionTaken {s : State} (hs : s.rejectionTaken) : (engineRun s).rejectionTaken :=
  engineRun_keeps (fun _ _ _ => engineStep_rejectionTaken) s hs

/-! ### So is every other turn into `REJECTED` -/

theorem CommandLeaves.rejectionTaken {s t : State} (h : CommandLeaves s t) (hs : s.rejectionTaken) :
    t.rejectionTaken := by
  cases h with
  | refused | unchanged => exact hs
  | cleared => exact nofun
  | rejected c _ hc =>
    refine reject_rejectionTaken ?_ s
    rcases hc with rfl | rfl | rfl <;> decide
  | receives | serves => exact advance_rejectionTaken (rejectionTaken_of_busy rfl)
  | walks q _ hwalks => exact advance_rejectionTaken (rejectionTaken_of_busy (SeqState.busy_of_walks hwalks))

theorem AccessLeaves.rejectionTaken {s t : State} (h : AccessLeaves s t) (hs : s.rejectionTaken) :
    t.rejectionTaken := by
  cases h with
  | replied | payloadRead | readRefused | payloadWritten | registerWritten => exact hs
  | command h => exact h.rejectionTaken hs

theorem linkStep_rejectionTaken (e : LinkEvent) {s : State} (hs : s.rejectionTaken) :
    (linkStep e s).rejectionTaken := by
  cases e with
  | rx bs => dsimp only [linkStep]; split <;> exact hs
  | eof | tx answer => exact hs

theorem TurnLeaves.rejectionTaken {s t : State} {turn : Turn} (h : TurnLeaves s turn t) (hs : s.rejectionTaken) :
    t.rejectionTaken := by
  cases h with
  | host a h => exact h.rejectionTaken hs
  | wait | setPace => exact hs
  | link e => exact linkStep_rejectionTaken e hs
  | engine => exact engineRun_rejectionTaken hs
  | reset => exact nofun

end Sys2Proof.Machine

namespace Sys2Proof.Proofs

open Sys2Proof.Machine

/-- Settles O38: the entry's own fields, and that a turn which finds the engine outside `REJECTED` can only bring it
there by the entry. -/
theorem rejectionEntry : Obligations.RejectionEntry := by
  refine ⟨fun c s => ⟨reject_rejectedWith c s, ?frame⟩, fun s t houtside hstep => ?taken⟩
  case frame => exact ⟨rfl, rfl, rfl, rfl, rfl, rfl, rfl, rfl, rfl, rfl, rfl, rfl, rfl, rfl, rfl, rfl, rfl⟩
  case taken =>
    obtain ⟨turn, rest, hturn, _⟩ := step_leaves hstep
    exact hturn.rejectionTaken (fun hrejected => absurd hrejected houtside)

end Sys2Proof.Proofs
end

section
/-! The exceptions family, second part: what each turn does to `HERR`. The accesses on the list of R211 set it, an
accepted `CLEAR` and reset clear it, and nothing else touches it (R210, R211). -/

namespace Sys2Proof.Machine

/-! ### The engine leaves `HERR` -/

theorem checked_herr (check : State → Option Cause) {run : State → State} (hrun : ∀ u, (run u).herr = u.herr)
    (s : State) : (checked check s run).herr = s.herr := by
  rcases checked_cases check s run with ⟨c, _, e⟩ | ⟨_, e⟩ <;> simp [e, hrun]

@[simp] theorem acceptHeader_herr (h : Header) (s : State) : (acceptHeader h s).herr = s.herr :=
  checked_herr checkLen (fun _ => by rfl) _

@[simp] theorem dispatch_herr (s : State) : (dispatch s).herr = s.herr := by
  rcases dispatch_cases s with ⟨_, e⟩ | ⟨d, _, _, e⟩ | ⟨d, _, _, e⟩ <;> simp [e]

@[simp] theorem verifyStep_herr (s : State) : (verifyStep s).herr = s.herr := by
  rcases verifyStep_cases s with ⟨_, e⟩ | ⟨_, _, e⟩ | ⟨_, _, e⟩ <;> simp [e]

@[simp] theorem afterSend_herr (s : State) : (afterSend s).herr = s.herr := by
  rcases afterSend_cases s with ⟨_, e⟩ | ⟨_, e⟩ <;> simp [e]

theorem recvHeaderStep_herr {s t : State} (h : recvHeaderStep s = some t) : t.herr = s.herr := by
  rcases recvHeaderStep_cases h with ⟨_, rfl⟩ | ⟨_, _, rfl⟩ | ⟨_, _, _, rfl⟩ <;> simp

theorem recvPayloadStep_herr {s t : State} (h : recvPayloadStep s = some t) : t.herr = s.herr := by
  rcases recvPayloadStep_cases h with ⟨_, rfl⟩ | ⟨_, _, rfl⟩ <;> simp

theorem sendStep_herr {s t : State} (h : sendStep s = some t) : t.herr = s.herr := by
  rcases sendStep_cases h with ⟨_, rfl⟩ | ⟨_, _, _, rfl⟩ | ⟨_, _, _, _, _, _, rfl⟩ <;> simp

theorem engineStep_herr {s t : State} (h : engineStep s = some t) : t.herr = s.herr := by
  rcases engineStep_cases h with
    ⟨_, _, h⟩ | ⟨_, _, h⟩ | ⟨_, rfl⟩ | ⟨d, _, rfl⟩ | ⟨_, rfl⟩ | ⟨_, h⟩
  · exact recvHeaderStep_herr h
  · exact recvPayloadStep_herr h
  · exact verifyStep_herr s
  · exact phaseXform_herr d s
  · exact phaseSum_herr s
  · exact sendStep_herr h

@[simp] theorem advance_herr (s : State) : (advance s).herr = s.herr :=
  advance_keeps (P := fun u => u.herr = s.herr) (fun _ _ hu hstep => (engineStep_herr hstep).trans hu) s rfl

@[simp] theorem engineRun_herr (s : State) : (engineRun s).herr = s.herr :=
  engineRun_keeps (P := fun u => u.herr = s.herr) (fun _ _ hu hstep => (engineStep_herr hstep).trans hu) s rfl

/-! ### A command sets `HERR` when it is on the list, and only an accepted `CLEAR` clears it (R181, R184) -/

theorem acceptCommand_herr_of_idle {s : State} (hidle : s.state = .idle) {run : State → State}
    (hrun : ∀ u, (run u).herr = u.herr) : (acceptCommand s run).herr = s.herr := by
  rw [acceptCommand_of_idle hidle, hrun]

theorem exec_herr_of_idle {i : Instr} {s t : State} (hcmd : i.format = .cmd) (hclear : i ≠ .clear)
    (hidle : s.state = .idle) (h : exec i s = .next t) : t.herr = s.herr := by
  cases i with
  | nop =>
    cases (exec_nop_of_not_busy (congrArg SeqState.busy hidle)).symm.trans h
    rfl
  | clear => exact absurd rfl hclear
  | recv | serve => cases h; exact acceptCommand_herr_of_idle hidle (fun _ => by simp)
  | gen | verify | send =>
    cases h
    exact acceptCommand_herr_of_idle hidle (checked_herr checkLen (fun _ => by simp))
  | enc | dec =>
    cases h
    exact acceptCommand_herr_of_idle hidle (checked_herr checkLen (checked_herr checkKey (fun _ => by simp)))
  | pktEncrypt csum key len | pktDecrypt csum key len => cases hcmd

theorem state_eq_idle {s : State} (hbusy : s.busy = false) (hterminal : s.state.terminal = false) :
    s.state = .idle := by
  unfold State.busy at hbusy
  cases hstate : s.state with
  | idle => rfl
  | receiving | verifying | encrypting | decrypting | summing | sending => simp [hstate, SeqState.busy] at hbusy
  | closed | rejected => simp [hstate, SeqState.terminal] at hterminal

/-- `regWrite_cmd` in the spelling of the list: the low byte as a narrowed value (R31). -/
theorem regWrite_cmd_eq (v : Word64) (s : State) : regWrite cmdNumber v s = issueCommand (v.setWidth 8) s := rfl

theorem isHostError_cmd_iff (v : Word64) (s : State) :
    isHostError (.regWrite cmdNumber v) s = true ↔
      s.busy = true ∨ 8 < (v.setWidth 8).toNat ∨
        (s.state.terminal = true ∧ v.setWidth 8 ≠ 0#8 ∧ v.setWidth 8 ≠ 1#8) := by
  simp [isHostError, cmdNumber, or_assoc, and_assoc]

/-- A command on the list is turned away. -/
theorem regWrite_cmd_of_isHostError {v : Word64} {s : State} (h : isHostError (.regWrite cmdNumber v) s = true) :
    regWrite cmdNumber v s = .next (hostError s) := by
  rw [regWrite_cmd_eq]
  rcases (isHostError_cmd_iff v s).mp h with hbusy | hreserved | ⟨hterminal, hnop, hclear⟩
  · exact issueCommand_of_busy hbusy _
  · exact issueCommand_of_reserved hreserved s
  · exact issueCommand_of_terminal hterminal hnop hclear

/-- An accepted `CLEAR` clears `HERR`. -/
theorem regWrite_clear_herr {v : Word64} {s t : State} (hbusy : s.busy = false) (hclear : v.setWidth 8 = 1#8)
    (h : regWrite cmdNumber v s = .next t) : t.herr = false := by
  have hcleared : regWrite cmdNumber v s = .next (clearPacket s) := by
    rw [regWrite_cmd_eq, hclear]
    exact exec_clear_of_not_busy hbusy
  cases hcleared.symm.trans h
  rfl

/-- A command that is neither on the list nor `CLEAR` leaves `HERR`: it is a `NOP`, or it is accepted in `IDLE`. -/
theorem regWrite_cmd_herr {v : Word64} {s t : State} (hclear : v.setWidth 8 ≠ 1#8)
    (hlist : ¬isHostError (.regWrite cmdNumber v) s = true) (h : regWrite cmdNumber v s = .next t) :
    t.herr = s.herr := by
  rw [isHostError_cmd_iff] at hlist
  push Not at hlist
  obtain ⟨hbusy, hcode, hterminal⟩ := hlist
  have hquiet : s.busy = false := Bool.eq_false_of_not_eq_true hbusy
  by_cases hnop : v.setWidth 8 = 0#8
  · have haccepted : regWrite cmdNumber v s = .next s := by
      rw [regWrite_cmd_eq, hnop]
      exact exec_nop_of_not_busy hquiet
    cases haccepted.symm.trans h
    rfl
  · obtain ⟨i, hdecode⟩ := decodeCommand_of_code hcode
    have hexec : exec i s = .next t := (issueCommand_of_decode hdecode s).symm.trans h
    have hidle : s.state = .idle :=
      state_eq_idle hquiet (Bool.eq_false_of_not_eq_true fun hend => hclear (hterminal hend hnop))
    refine exec_herr_of_idle (format_of_decodeCommand hdecode) ?_ hidle hexec
    rintro rfl
    exact hclear (List.head_eq_of_cons_eq (encode_of_decodeCommand hdecode .be)).symm

/-! ### A host access sets `HERR` exactly when the list names it (R211) -/

/-- The access is a write of the command `CLEAR` (R31, R184). -/
def Access.writesClear (a : Access) : Prop := ∃ v : Word64, a = .regWrite cmdNumber v ∧ v.setWidth 8 = 1#8

/-- `HERR` after an access: set by the list, kept otherwise, but for a `CLEAR`. -/
def HerrAfter (a : Access) (s t : State) : Prop :=
  t.herr = true ↔ (s.herr = true ∧ ¬a.writesClear) ∨ isHostError a s = true

theorem herrAfter_of_listed {a : Access} {s t : State} (hlist : isHostError a s = true) (ht : t.herr = true) :
    HerrAfter a s t :=
  iff_of_true ht (.inr hlist)

theorem herrAfter_of_kept {a : Access} {s t : State} (hclear : ¬a.writesClear) (hlist : ¬isHostError a s = true)
    (ht : t.herr = s.herr) : HerrAfter a s t := by
  simp [HerrAfter, ht, hclear, hlist]

theorem isHostError_regRead_iff (r : Nat) (s : State) :
    isHostError (.regRead r) s = true ↔ r ≠ cmdNumber ∧ r ≠ statusNumber ∧ (s.busy = true ∨ 7 ≤ r) := by
  simp only [isHostError, cmdNumber, statusNumber, Bool.or_eq_true, Bool.and_eq_true, decide_eq_true_eq]
  cases s.busy <;> simp <;> omega

theorem isHostError_regWrite_iff {r : Nat} (hcmd : r ≠ cmdNumber) (v : Word64) (s : State) :
    isHostError (.regWrite r v) s = true ↔ s.busy = true ∨ 4 ≤ r := by
  have hother : ¬r = 4 := hcmd
  simp only [isHostError, if_neg hother, Bool.or_eq_true, Bool.and_eq_true, decide_eq_true_eq]
  cases s.busy <;> simp <;> omega

theorem isHostError_payRead_iff (a : Nat) (s : State) :
    isHostError (.payRead a) s = true ↔ s.params.maxPayload ≤ a ∨ s.busy = true := by
  simp [isHostError, or_comm]

theorem isHostError_payWrite_iff (a : Nat) (b : Byte) (s : State) :
    isHostError (.payWrite a b) s = true ↔ s.params.maxPayload ≤ a ∨ s.busy = true :=
  isHostError_payRead_iff a s

/-- Every register number below 7 but those of `CMD` and `STATUS` has a value to read (R80). -/
theorem registerValue_of_readable {r : Nat} (hcmd : r ≠ cmdNumber) (hstatus : r ≠ statusNumber) (h : r < 7)
    (s : State) : ∃ v, registerValue r s = some v := by
  unfold cmdNumber at hcmd
  unfold statusNumber at hstatus
  have hnumber : r = 0 ∨ r = 1 ∨ r = 2 ∨ r = 3 ∨ r = 6 := by omega
  rcases hnumber with rfl | rfl | rfl | rfl | rfl <;> exact ⟨_, rfl⟩

/-- The header registers are the writable ones (R80). -/
theorem writeRegister_of_writable {r : Nat} (h : r < 4) (v : Word64) (s : State) :
    ∃ hdr, writeRegister r v s = some (loadHeader hdr s) := by
  obtain ⟨t, hwrite⟩ : ∃ t, writeRegister r v s = some t := by
    interval_cases r <;> exact ⟨_, rfl⟩
  obtain ⟨hdr, rfl⟩ := writeRegister_eq_loadHeader hwrite
  exact ⟨hdr, hwrite⟩

theorem regRead_herrAfter (r : Nat) (s : State) : HerrAfter (.regRead r) s (regRead r s) := by
  by_cases hlist : isHostError (.regRead r) s = true
  · obtain ⟨hcmd, hstatus, hrefused⟩ := (isHostError_regRead_iff r s).mp hlist
    refine herrAfter_of_listed hlist ?_
    rw [regRead_refused hcmd hstatus (hrefused.imp_right fun h => registerValue_of_reserved h s), refuseRead_herr]
  · refine herrAfter_of_kept nofun hlist ?_
    by_cases hcmd : r = cmdNumber
    · rw [hcmd, regRead_cmd, reply_herr]
    · by_cases hstatus : r = statusNumber
      · rw [hstatus, regRead_status, reply_herr]
      · obtain ⟨hbusy, hnumber⟩ :=
          not_or.mp fun h => hlist ((isHostError_regRead_iff r s).mpr ⟨hcmd, hstatus, h⟩)
        obtain ⟨v, hvalue⟩ := registerValue_of_readable hcmd hstatus (Nat.not_le.mp hnumber) s
        rw [regRead_granted hcmd hstatus hvalue (Bool.eq_false_of_not_eq_true hbusy), reply_herr]

theorem regWrite_cmd_herrAfter {v : Word64} {s t : State} (h : regWrite cmdNumber v s = .next t) :
    HerrAfter (.regWrite cmdNumber v) s t := by
  by_cases hlist : isHostError (.regWrite cmdNumber v) s = true
  · cases (regWrite_cmd_of_isHostError hlist).symm.trans h
    exact herrAfter_of_listed hlist rfl
  · by_cases hclear : v.setWidth 8 = 1#8
    · have hbusy : s.busy = false :=
        Bool.eq_false_of_not_eq_true fun hbusy => hlist ((isHostError_cmd_iff v s).mpr (.inl hbusy))
      have hwrites : (Access.regWrite cmdNumber v).writesClear := ⟨v, rfl, hclear⟩
      simp [HerrAfter, regWrite_clear_herr hbusy hclear h, hwrites, hlist]
    · refine herrAfter_of_kept ?_ hlist (regWrite_cmd_herr hclear hlist h)
      rintro ⟨v', hv, hclear'⟩
      cases hv
      exact hclear hclear'

theorem regWrite_register_herrAfter {r : Nat} {v : Word64} {s t : State} (hcmd : r ≠ cmdNumber)
    (h : regWrite r v s = .next t) : HerrAfter (.regWrite r v) s t := by
  by_cases hlist : isHostError (.regWrite r v) s = true
  · have hrefused := (isHostError_regWrite_iff hcmd v s).mp hlist
    cases (regWrite_refused hcmd (hrefused.imp_right fun h => writeRegister_of_not_writable h v s)).symm.trans h
    exact herrAfter_of_listed hlist rfl
  · obtain ⟨hbusy, hnumber⟩ := not_or.mp (mt (isHostError_regWrite_iff hcmd v s).mpr hlist)
    obtain ⟨hdr, hwrite⟩ := writeRegister_of_writable (Nat.not_le.mp hnumber) v s
    cases (regWrite_granted hcmd hwrite (Bool.eq_false_of_not_eq_true hbusy)).symm.trans h
    refine herrAfter_of_kept ?_ hlist rfl
    rintro ⟨v', hv, _⟩
    cases hv
    exact hcmd rfl

theorem payRead_herrAfter (a : Nat) (s : State) : HerrAfter (.payRead a) s (payRead a s) := by
  by_cases hlist : isHostError (.payRead a) s = true
  · rw [payRead_refused ((isHostError_payRead_iff a s).mp hlist)]
    exact herrAfter_of_listed hlist rfl
  · obtain ⟨hrange, hbusy⟩ := not_or.mp (mt (isHostError_payRead_iff a s).mpr hlist)
    rw [payRead_granted (Nat.not_le.mp hrange) (Bool.eq_false_of_not_eq_true hbusy)]
    exact herrAfter_of_kept nofun hlist rfl

theorem payWrite_herrAfter (a : Nat) (b : Byte) (s : State) : HerrAfter (.payWrite a b) s (payWrite a b s) := by
  by_cases hlist : isHostError (.payWrite a b) s = true
  · rw [payWrite_refused ((isHostError_payWrite_iff a b s).mp hlist)]
    exact herrAfter_of_listed hlist rfl
  · obtain ⟨hrange, hbusy⟩ := not_or.mp (mt (isHostError_payWrite_iff a b s).mpr hlist)
    rw [payWrite_granted (Nat.not_le.mp hrange) (Bool.eq_false_of_not_eq_true hbusy)]
    exact herrAfter_of_kept nofun hlist rfl

theorem hostAccess_herrAfter {a : Access} {s t : State} (h : hostAccess a s = .next t) : HerrAfter a s t := by
  cases a with
  | regRead r => cases h; exact regRead_herrAfter r s
  | regWrite r v =>
    by_cases hcmd : r = cmdNumber
    · subst hcmd
      exact regWrite_cmd_herrAfter h
    · exact regWrite_register_herrAfter hcmd h
  | payRead a => cases h; exact payRead_herrAfter a s
  | payWrite a b => cases h; exact payWrite_herrAfter a b s

/-! ### Every agent's turn but the reset event -/

/-- A host access ends with `HERR = 1` where it found it, unless it is a `CLEAR` that is accepted. -/
theorem hostAccess_keeps_herr {a : Access} {s t : State} (hs : s.herr = true) (hclear : a.writesClear → s.busy = true)
    (h : hostAccess a s = .next t) : t.herr = true := by
  refine (hostAccess_herrAfter h).mpr ?_
  by_cases hwrites : a.writesClear
  · have hbusy := hclear hwrites
    obtain ⟨v, rfl, _⟩ := hwrites
    exact .inr ((isHostError_cmd_iff v s).mpr (.inl hbusy))
  · exact .inl ⟨hs, hwrites⟩

theorem linkStep_herr (e : LinkEvent) (s : State) : (linkStep e s).herr = s.herr := by
  cases e with
  | rx bs => dsimp only [linkStep]; split <;> rfl
  | eof | tx answer => rfl

theorem takeTurn_keeps_herr {turn : Turn} {s t : State} (hs : s.herr = true) (hreset : turn ≠ .reset)
    (hclear : ∀ a, turn = .host a → a.writesClear → s.busy = true) (h : takeTurn turn s = .next t) :
    t.herr = true := by
  cases turn with
  | host a => exact hostAccess_keeps_herr hs (hclear a rfl) h
  | wait => cases takeTurn_leaves h; exact hs
  | link e => cases h; exact (linkStep_herr e s).trans hs
  | engine => cases takeTurn_leaves h; exact (engineRun_herr s).trans hs
  | reset => exact absurd rfl hreset
  | setPace p => cases h; exact hs

end Sys2Proof.Machine

namespace Sys2Proof.Proofs

open Sys2Proof.Machine

/-- Settles O24: from `HERR = 0` only the list is left of what an access does to `HERR`. -/
theorem hostErrorsAreTheList : Obligations.HostErrorsAreTheList := by
  intro a s t hs h
  have hafter := hostAccess_herrAfter h
  simpa [HerrAfter, hs] using hafter

/-- Settles O15: no turn but the two excluded ones clears `HERR`; a `CLEAR` while the engine is busy is itself on the
list. -/
theorem hostErrorIsSticky : Obligations.HostErrorIsSticky := by
  intro s t hs hstep hreset hclear
  cases hagenda : s.agenda with
  | nil =>
    have hengine : takeTurn .engine s = .next t := (step_of_agenda_nil hagenda).symm.trans hstep
    exact takeTurn_keeps_herr (turn := .engine) hs nofun nofun hengine
  | cons turn rest =>
    rw [step_of_agenda_cons hagenda] at hstep
    rw [hagenda, List.head?_cons] at hreset hclear
    refine takeTurn_keeps_herr (s := { s with agenda := rest }) hs (fun h => hreset (congrArg some h)) ?_ hstep
    rintro a rfl ⟨v, rfl, hcode⟩
    exact hclear v rfl hcode

end Sys2Proof.Proofs
end

section
/-! What a step fetches and runs: a command from the host's write to `CMD`, a packet operation from the link (logs 1
and 13). -/

namespace Sys2Proof.Machine

/-- With no turn listed the engine has the step: it runs the packet operation that has arrived, with its bytes used
up. -/
theorem step_of_unlisted_packet {s : State} {i : Instr} (hagenda : s.agenda = []) (hawaits : awaitsPacket s = true)
    (hlen : 16 ≤ s.rxq.length) (hdecode : decode s.params.hostOrder .pkt (s.rxq.take 16) = .ok i) :
    step s = exec i { s with agenda := [], rxq := s.rxq.drop 16 } := by
  rw [step_of_agenda_nil hagenda, engineTurn_of_decode hawaits hlen hdecode, ← hagenda]

end Sys2Proof.Machine

namespace Sys2Proof.Proofs

open Sys2Proof.Machine

/-- Settles O5: the host's write of a code runs its command; the engine's turn, listed or not, runs the packet
operation whose sixteen bytes have arrived. -/
theorem stepRunsDecodedInstruction : Obligations.StepRunsDecodedInstruction := by
  refine ⟨?command, ?packet⟩
  case command =>
    intro s v rest i hagenda hdecode
    exact step_of_cmdWrite hagenda hdecode
  case packet =>
    intro s rest i hagenda hstate hseq hhdr hconn hlen hdecode
    have hawaits : awaitsPacket s = true := (awaitsPacket_iff s).mpr ⟨hstate, hseq, hhdr, hconn⟩
    rcases hagenda with hlisted | ⟨hunlisted, rfl⟩
    · exact step_of_packet hlisted hawaits hlen hdecode
    · exact step_of_unlisted_packet hunlisted hawaits hlen hdecode

end Sys2Proof.Proofs
end
